-- ==== Sys2Proof/Word.lean ====
section
/-! DEFINITION. The two widths of data the engine handles (00_scope.md R6, R8). -/

namespace Sys2Proof

/-- A byte: one cell of IN or OUT (R8). -/
abbrev Byte := BitVec 8

/-- A 32-bit word: a working or State register, one cell of W (R8). All values are unsigned. -/
abbrev Word := BitVec 32

end Sys2Proof
end

