-- ==== Sys2Proof/Config.lean ====
section
/-! DEFINITION. What one implementation fixes and the spec leaves open (92_eei_decisions.md D1, U14). -/

namespace Sys2Proof

/-- The number an implementation chooses for its largest message, before the bound of R7 is applied.
It has no body: no proof can find a value of it, so every theorem holds for every choice. -/
opaque Config.chosenMaxBytes : Nat

/-- `MAXBYTES` (00_scope.md R7): the largest message length in bytes. Every value from 0 to 2^61 - 1 can be
meant, and no other. -/
def Config.maxBytes : Nat := min Config.chosenMaxBytes (2 ^ 61 - 1)

end Sys2Proof
end

