-- ==== Sys2Proof/Syntax.lean ====
section
/-! DEFINITION. The instructions: the 73 micro-operations and the two host commands, one constructor per row of
spec/opcode_table.json (30_encoding.md R85, R86). No instruction carries an operand: element indices are state
(R83) and a step's constants are looked up from its number (R84). -/

namespace Sys2Proof

/-- The instruction set. `stepT` is STEPT of 42_compression.md, rule R(160+T). -/
inductive Instr where
  | init | packb | bswap | padbit | padlen | loadw
  | step0 | step1 | step2 | step3 | step4 | step5 | step6 | step7
  | step8 | step9 | step10 | step11 | step12 | step13 | step14 | step15
  | step16 | step17 | step18 | step19 | step20 | step21 | step22 | step23
  | step24 | step25 | step26 | step27 | step28 | step29 | step30 | step31
  | step32 | step33 | step34 | step35 | step36 | step37 | step38 | step39
  | step40 | step41 | step42 | step43 | step44 | step45 | step46 | step47
  | step48 | step49 | step50 | step51 | step52 | step53 | step54 | step55
  | step56 | step57 | step58 | step59 | step60 | step61 | step62 | step63
  | fold | fswap | unpkb
  | start | nop
  deriving DecidableEq, Repr

/-- The three formats of 30_encoding.md section 1 and R86. -/
inductive Format where
  /-- A micro-operation other than a step: phase code, low bits zero. -/
  | u
  /-- A step: phase code 7, step number in the low bits. -/
  | s
  /-- A host command on the 2-bit CMD port. -/
  | h
  deriving DecidableEq, Repr

end Sys2Proof
end

