-- ==== Sys2Proof/WellFormed.lean ====
section
/-! DEFINITION. What may be written down: which 10-bit words are micro-operation words and which 2-bit values are
host commands (30_encoding.md R80 to R90). An `Instr` has no operand, so there is nothing in one to be ill-formed;
the checks stand on the words that encode them. -/

namespace Sys2Proof

/-- Check 1 (R81, R87): the phase code, the word's upper four bits, is one of 1..10. -/
def uopPhaseOk (u : BitVec 10) : Bool := 1 ≤ u.toNat / 64 && u.toNat / 64 ≤ 10

/-- Check 2 (R82, R87): outside format S, phase code 7, the low six bits are zero. -/
def uopLowOk (u : BitVec 10) : Bool := u.toNat / 64 == 7 || u.toNat % 64 == 0

/-- A defined micro-operation word: one of the 73 of R85, not one of the 951 reserved ones of R87. -/
def uopWellFormed (u : BitVec 10) : Bool := uopPhaseOk u && uopLowOk u

/-- Check 3 (R86, R90): a CMD value the host may write, 0 or 1. -/
def cmdWellFormed (c : BitVec 2) : Bool := c.toNat ≤ 1

/-- Every instruction is well-formed: none has an operand (R83, R84). -/
def Instr.wellFormed (_ : Instr) : Bool := true

end Sys2Proof
end

