-- ==== Sys2Proof/Decode.lean ====
section
/-! DEFINITION. The decoder of micro-operation words and of host commands, total and rejecting by name, and the
encoder written from the map of 30_encoding.md R85 and R86. -/

namespace Sys2Proof

/-- The phase code of a micro-operation word, `uop[9:6]` (R81). -/
def phaseField (u : BitVec 10) : BitVec 4 := u.extractLsb' 6 4

/-- The low field of a micro-operation word, `uop[5:0]` (R82): the step number in format S, zero in format U. -/
def lowField (u : BitVec 10) : BitVec 6 := u.extractLsb' 0 6

/-- The 64 steps in the order of their numbers, one round a line (R82). -/
def stepInstrs : List Instr :=
  [.step0, .step1, .step2, .step3, .step4, .step5, .step6, .step7, .step8, .step9, .step10, .step11, .step12, .step13, .step14, .step15] ++
  [.step16, .step17, .step18, .step19, .step20, .step21, .step22, .step23, .step24, .step25, .step26, .step27, .step28, .step29, .step30, .step31] ++
  [.step32, .step33, .step34, .step35, .step36, .step37, .step38, .step39, .step40, .step41, .step42, .step43, .step44, .step45, .step46, .step47] ++
  [.step48, .step49, .step50, .step51, .step52, .step53, .step54, .step55, .step56, .step57, .step58, .step59, .step60, .step61, .step62, .step63]

/-- STEPt as an instruction, for the 6-bit step number `t` (R31, R82). -/
def stepInstr (t : BitVec 6) : Instr := stepInstrs.getD t.toNat .step0

/-- Why a word decodes to no instruction. -/
inductive DecodeError where
  /-- A reserved micro-operation word (R87). -/
  | reservedUop
  /-- A reserved value of CMD (R90). -/
  | reservedCmd
  deriving DecidableEq, Repr

/-- What an instruction is written as: a 10-bit micro-operation word, or a value of the 2-bit CMD port. -/
inductive CodeWord where
  | uop (u : BitVec 10)
  | cmd (c : BitVec 2)
  deriving DecidableEq, Repr

/-- The format U micro-operation with phase code `ph` (R81). -/
def formatU (ph : Nat) : Except DecodeError Instr :=
  match ph with
  | 1 => .ok .init
  | 2 => .ok .packb
  | 3 => .ok .bswap
  | 4 => .ok .padbit
  | 5 => .ok .padlen
  | 6 => .ok .loadw
  | 8 => .ok .fold
  | 9 => .ok .fswap
  | 10 => .ok .unpkb
  | _ => .error .reservedUop

/-- The decoder of micro-operation words (R80 to R82, R87): every one of the 1024 words has an answer. -/
def decodeUop (u : BitVec 10) : Except DecodeError Instr :=
  if phaseField u = 7#4 then .ok (stepInstr (lowField u))
  else if lowField u = 0#6 then formatU (phaseField u).toNat
  else .error .reservedUop

/-- The decoder of the CMD port (R86, R90). -/
def decodeCmd (c : BitVec 2) : Except DecodeError Instr :=
  match c.toNat with
  | 0 => .ok .nop
  | 1 => .ok .start
  | _ => .error .reservedCmd

/-- Decoding on either port. -/
def decode : CodeWord → Except DecodeError Instr
  | .uop u => decodeUop u
  | .cmd c => decodeCmd c

/-- The encoder: the word the opcode map gives each instruction (R85, R86; STEPt is 0x1C0 + t). -/
def encode : Instr → CodeWord
  | .init => .uop 0x040#10
  | .packb => .uop 0x080#10
  | .bswap => .uop 0x0c0#10
  | .padbit => .uop 0x100#10
  | .padlen => .uop 0x140#10
  | .loadw => .uop 0x180#10
  | .step0 => .uop 0x1c0#10
  | .step1 => .uop 0x1c1#10
  | .step2 => .uop 0x1c2#10
  | .step3 => .uop 0x1c3#10
  | .step4 => .uop 0x1c4#10
  | .step5 => .uop 0x1c5#10
  | .step6 => .uop 0x1c6#10
  | .step7 => .uop 0x1c7#10
  | .step8 => .uop 0x1c8#10
  | .step9 => .uop 0x1c9#10
  | .step10 => .uop 0x1ca#10
  | .step11 => .uop 0x1cb#10
  | .step12 => .uop 0x1cc#10
  | .step13 => .uop 0x1cd#10
  | .step14 => .uop 0x1ce#10
  | .step15 => .uop 0x1cf#10
  | .step16 => .uop 0x1d0#10
  | .step17 => .uop 0x1d1#10
  | .step18 => .uop 0x1d2#10
  | .step19 => .uop 0x1d3#10
  | .step20 => .uop 0x1d4#10
  | .step21 => .uop 0x1d5#10
  | .step22 => .uop 0x1d6#10
  | .step23 => .uop 0x1d7#10
  | .step24 => .uop 0x1d8#10
  | .step25 => .uop 0x1d9#10
  | .step26 => .uop 0x1da#10
  | .step27 => .uop 0x1db#10
  | .step28 => .uop 0x1dc#10
  | .step29 => .uop 0x1dd#10
  | .step30 => .uop 0x1de#10
  | .step31 => .uop 0x1df#10
  | .step32 => .uop 0x1e0#10
  | .step33 => .uop 0x1e1#10
  | .step34 => .uop 0x1e2#10
  | .step35 => .uop 0x1e3#10
  | .step36 => .uop 0x1e4#10
  | .step37 => .uop 0x1e5#10
  | .step38 => .uop 0x1e6#10
  | .step39 => .uop 0x1e7#10
  | .step40 => .uop 0x1e8#10
  | .step41 => .uop 0x1e9#10
  | .step42 => .uop 0x1ea#10
  | .step43 => .uop 0x1eb#10
  | .step44 => .uop 0x1ec#10
  | .step45 => .uop 0x1ed#10
  | .step46 => .uop 0x1ee#10
  | .step47 => .uop 0x1ef#10
  | .step48 => .uop 0x1f0#10
  | .step49 => .uop 0x1f1#10
  | .step50 => .uop 0x1f2#10
  | .step51 => .uop 0x1f3#10
  | .step52 => .uop 0x1f4#10
  | .step53 => .uop 0x1f5#10
  | .step54 => .uop 0x1f6#10
  | .step55 => .uop 0x1f7#10
  | .step56 => .uop 0x1f8#10
  | .step57 => .uop 0x1f9#10
  | .step58 => .uop 0x1fa#10
  | .step59 => .uop 0x1fb#10
  | .step60 => .uop 0x1fc#10
  | .step61 => .uop 0x1fd#10
  | .step62 => .uop 0x1fe#10
  | .step63 => .uop 0x1ff#10
  | .fold => .uop 0x200#10
  | .fswap => .uop 0x240#10
  | .unpkb => .uop 0x280#10
  | .start => .cmd 1#2
  | .nop => .cmd 0#2

/-- The format of each instruction (30_encoding.md section 1, R86), read off its encoding. -/
def Instr.format (i : Instr) : Format :=
  match encode i with
  | .cmd _ => .h
  | .uop u => if phaseField u = 7#4 then .s else .u

/-- What the decoder reads from a row of the opcode table whose bits are `w`. A row of at most 8 bits is a host
command (2 bits on CMD, R86); a longer one is a micro-operation word (10 bits, R80). Neither is stored in a
memory, and bits above the port's width are no part of either: a `w` that has some decodes to nothing. -/
def decodeTableWord (nbits w : Nat) : Option Instr :=
  if nbits ≤ 8 then
    if w < 4 then (decodeCmd (BitVec.ofNat 2 w)).toOption else none
  else if w < 1024 then (decodeUop (BitVec.ofNat 10 w)).toOption
  else none

end Sys2Proof
end

