-- ==== Sys2Proof/Machine/State.lean ====
section
/-! DEFINITION. The state of one engine (10_state.md R20), the host's coming actions, and the reasons a step stops.

R21: every register and every cell "either holds a value of its width or holds *no value*". That is the spec's own
state, not a missing reset value: INIT takes OUT's values away (R241), hardware reset takes all but PHASE and ERRCODE
away (R43, R310), and the host can be refused because of it (R34, R318). A register is therefore an `Option`, and a
cell that holds no value is a cell its memory does not list. -/

namespace Sys2Proof.Machine

/-- A space of cells of width `w`: (index, value) pairs, indices strictly rising (`Memory.wf`). A cell that is not
listed holds no value (R21). -/
abbrev Memory (w : Nat) := List (Nat × BitVec w)

/-- Four like registers, `[0..3]` in the order `a, b, c, d` (R22, R24, R26). -/
structure Quad (α : Type) where
  a : α
  b : α
  c : α
  d : α
  deriving DecidableEq, Repr

/-- A place that can hold no value, as a fault names it (R20). -/
inductive Location where
  /-- Working register `WR[i]`. -/
  | wr (i : Nat)
  /-- State register `ST[i]`. -/
  | st (i : Nat)
  /-- Output word register `Q[i]`. -/
  | q (i : Nat)
  | len | nwm | nw | nb
  | idx | j | t
  /-- Host port `N`. -/
  | n
  /-- Host port `PRESENT`. -/
  | present
  /-- Cell `IN[i]`. -/
  | inCell (i : Nat)
  /-- Cell `W[i]`. -/
  | wCell (i : Nat)
  /-- Cell `OUT[i]`. -/
  | outCell (i : Nat)
  deriving DecidableEq, Repr

/-- What the host can do (R33 to R37, R45, R310). -/
inductive HostAction where
  /-- `IN[i] <- b` (R38, R312). -/
  | writeIn (i : Nat) (b : Byte)
  /-- `N <- v` (R33). -/
  | writeN (v : Nat)
  /-- `PRESENT <- v` (R34). -/
  | writePresent (v : Bool)
  /-- `CMD <- c` (R35, R86). -/
  | command (c : BitVec 2)
  /-- Read STATUS (R36). -/
  | readStatus
  /-- Read `N` (R45). -/
  | readN
  /-- Read `PRESENT` (R45). -/
  | readPresent
  /-- Read `OUT[i]` (R40, R321). -/
  | readOut (i : Nat)
  /-- Read `IN[i]`, which R45 never allows: IN is write-only. -/
  | readIn (i : Nat)
  /-- Read CMD, which R45 never allows. -/
  | readCmd
  /-- Write STATUS, which R45 never allows. -/
  | writeStatus (v : BitVec 6)
  /-- Write `OUT[i]`, which R45 never allows. -/
  | writeOut (i : Nat) (b : Byte)
  /-- Hardware reset (R310). -/
  | reset
  deriving DecidableEq, Repr

/-- A host action and the number of steps that pass before it. -/
structure HostEvent where
  after : Nat
  act : HostAction
  deriving DecidableEq, Repr

/-- What a host read returned. -/
inductive Seen where
  | status (v : BitVec 6)
  | n (v : Nat)
  | present (v : Bool)
  | out (i : Nat) (b : Byte)
  deriving DecidableEq, Repr

/-- The state of one engine, R20's table field by field, and after it the two fields that are the model's own:
the host's coming actions and what its reads have returned (log entry 4). -/
structure State where
  /-- Working registers `a, b, c, d` (R22, R23). -/
  wr : Quad (Option Word)
  /-- State accumulator `A, B, C, D` (R24, R25). -/
  st : Quad (Option Word)
  /-- Output word registers (R26). -/
  q : Quad (Option Word)
  /-- Message length in bits (R27). -/
  len : Option (BitVec 64)
  /-- Number of words that hold message bytes (R27). -/
  nwm : Option Nat
  /-- Number of words of the padded message (R27, R57). -/
  nw : Option Nat
  /-- Number of blocks (R27, R57). -/
  nb : Option Nat
  /-- Sequencer phase (R29). -/
  phase : BitVec 4
  /-- Element counter (R28). -/
  idx : Option Nat
  /-- Block counter (R28). -/
  j : Option Nat
  /-- Step counter (R28, R31). -/
  t : Option (BitVec 6)
  /-- Cause of the last exception (R37). -/
  errcode : BitVec 2
  /-- Host port: message length in bytes (R33). -/
  n : Option Nat
  /-- Host port: input present (R34). -/
  present : Option Bool
  /-- Space IN (R38). -/
  inp : Memory 8
  /-- Space W (R39). -/
  w : Memory 32
  /-- Space OUT (R40). -/
  out : Memory 8
  /-- Model's own: what the host is going to do, next first. -/
  pending : List HostEvent
  /-- Model's own: what the host's reads returned, oldest first. -/
  seen : List Seen
  deriving DecidableEq, Repr

/-- Why a step stops with a fault. No fault leaves a state: nothing of the action has happened. -/
inductive Fault where
  /-- A micro-operation, START, or a host read reads a place that holds no value: "a model must treat it as a fault and
  must not substitute zero or any other number" (R21; R11, R34, R101, R321, D11, U5, U6, U11, U13). Raised by every
  meaning and host read that reads state. Safe: the model stops where R21 says it must. Log entry 1: which place. -/
  | noValue (l : Location)
  /-- An access to a cell or register index that does not exist (R38 to R40, R63). Raised by PACKB, BSWAP, PADBIT,
  PADLEN, STEPt, FSWAP, UNPKB and host accesses to IN and OUT. Safe: there is no such place. -/
  | noSuchCell (l : Location)
  deriving DecidableEq, Repr

/-- Why a step is refused: an action the rules give no meaning. -/
inductive Refusal where
  /-- An instruction without a meaning yet, by its mnemonic. Raised by no arm of `exec`. Safe. -/
  | notModelled (mnemonic : String)
  /-- A reserved micro-operation word (R87, U8). Raised by the engine's step, in a state whose PHASE is reserved.
  Safe. -/
  | reservedUop
  /-- The host wrote 2 or 3 to CMD (R90, U8). Raised by the host action `command`. Safe. -/
  | reservedCmd
  /-- START while PHASE is not 0, 14 or 15 (R45, R320, U7). Raised by START. Safe. -/
  | startNotQuiescent
  /-- START with PRESENT = 1 and `N > MAXBYTES` or N without a value (R318, U4); also INIT with `N > MAXBYTES`, which
  no run reaches. Raised by START and INIT. Safe. -/
  | messageTooLong
  /-- A host write to IN, N or PRESENT while PHASE is not 0, 14 or 15 (R45, R319, U7). Raised by the host's writes.
  Safe. -/
  | hostWriteNotQuiescent
  /-- A host access R45 says the host may never make: a read of IN or CMD, a write of STATUS or OUT. Raised by those
  host actions. Safe. -/
  | hostAccessNever
  deriving DecidableEq, Repr

/-- What a step or a meaning answers. -/
abbrev Result := Host.Outcome State Fault Refusal

/-- Four registers that hold no value. -/
def Quad.none : Quad (Option Word) := ⟨Option.none, Option.none, Option.none, Option.none⟩

/-- The state after hardware reset (R43): PHASE and ERRCODE are 0 and everything else holds no value. The host has
nothing to do and has seen nothing (log entry 4). -/
def State.reset : State where
  wr := Quad.none
  st := Quad.none
  q := Quad.none
  len := none
  nwm := none
  nw := none
  nb := none
  phase := 0#4
  idx := none
  j := none
  t := none
  errcode := 0#2
  n := none
  present := none
  inp := []
  w := []
  out := []
  pending := []
  seen := []

end Sys2Proof.Machine
end

