-- ==== Sys2Proof/Machine/Ops.lean ====
section
/-! DEFINITION. The named operations over registers and memories: every read of a place that may hold no value, every
store to a cell, the one exception, and hardware reset. -/

namespace Sys2Proof.Machine

/-! ## Phases (10_state.md R29) -/

@[simp] abbrev Phase.idle : BitVec 4 := 0#4
@[simp] abbrev Phase.init : BitVec 4 := 1#4
@[simp] abbrev Phase.pack : BitVec 4 := 2#4
@[simp] abbrev Phase.swap : BitVec 4 := 3#4
@[simp] abbrev Phase.padbit : BitVec 4 := 4#4
@[simp] abbrev Phase.padlen : BitVec 4 := 5#4
@[simp] abbrev Phase.load : BitVec 4 := 6#4
@[simp] abbrev Phase.step : BitVec 4 := 7#4
@[simp] abbrev Phase.fold : BitVec 4 := 8#4
@[simp] abbrev Phase.fswap : BitVec 4 := 9#4
@[simp] abbrev Phase.unpk : BitVec 4 := 10#4
@[simp] abbrev Phase.done : BitVec 4 := 14#4
@[simp] abbrev Phase.err : BitVec 4 := 15#4

/-! ## Writing one field -/

def State.setWr (s : State) (v : Quad (Option Word)) : State := { s with wr := v }
def State.setSt (s : State) (v : Quad (Option Word)) : State := { s with st := v }
def State.setQ (s : State) (v : Quad (Option Word)) : State := { s with q := v }
def State.setLen (s : State) (v : Option (BitVec 64)) : State := { s with len := v }
def State.setNwm (s : State) (v : Option Nat) : State := { s with nwm := v }
def State.setNw (s : State) (v : Option Nat) : State := { s with nw := v }
def State.setNb (s : State) (v : Option Nat) : State := { s with nb := v }
def State.setPhase (s : State) (v : BitVec 4) : State := { s with phase := v }
def State.setIdx (s : State) (v : Option Nat) : State := { s with idx := v }
def State.setJ (s : State) (v : Option Nat) : State := { s with j := v }
def State.setT (s : State) (v : Option (BitVec 6)) : State := { s with t := v }
def State.setErrcode (s : State) (v : BitVec 2) : State := { s with errcode := v }
def State.setN (s : State) (v : Option Nat) : State := { s with n := v }
def State.setPresent (s : State) (v : Option Bool) : State := { s with present := v }
def State.setIn (s : State) (v : Memory 8) : State := { s with inp := v }
def State.setW (s : State) (v : Memory 32) : State := { s with w := v }
def State.setOut (s : State) (v : Memory 8) : State := { s with out := v }
def State.setPending (s : State) (v : List HostEvent) : State := { s with pending := v }
def State.setSeen (s : State) (v : List Seen) : State := { s with seen := v }

/-- `pc <- (PHASE', idx', j', t')` (R10, R28). -/
def State.setPc (s : State) (phase : BitVec 4) (idx j : Nat) (t : BitVec 6) : State :=
  (((s.setPhase phase).setIdx (some idx)).setJ (some j)).setT (some t)

/-! ## Reading a place that may hold no value (R11, R21) -/

/-- Go on with the value `o` holds. A place `l` that holds no value must not be read, and the read is a fault (R11,
R21). -/
def need {α : Type} (o : Option α) (l : Location) (k : α → Result) : Result :=
  match o with
  | some a => k a
  | none => .fault (.noValue l)

/-- Go on with the values of four registers. -/
def needQuad (r : Quad (Option Word)) (l : Nat → Location) (k : Quad Word → Result) : Result :=
  need r.a (l 0) fun a => need r.b (l 1) fun b => need r.c (l 2) fun c => need r.d (l 3) fun d => k ⟨a, b, c, d⟩

/-- Register `[i]` of four; there is none at an index above 3. -/
def Quad.get? {α : Type} (r : Quad α) (i : Nat) : Option α :=
  match i with
  | 0 => some r.a
  | 1 => some r.b
  | 2 => some r.c
  | 3 => some r.d
  | _ => Option.none

/-- Four registers with `v` in `[i]`. -/
def Quad.set {α : Type} (r : Quad α) (i : Nat) (v : α) : Quad α :=
  match i with
  | 0 => { r with a := v }
  | 1 => { r with b := v }
  | 2 => { r with c := v }
  | 3 => { r with d := v }
  | _ => r

/-- Four registers that all hold a value. -/
def Quad.valued (r : Quad Word) : Quad (Option Word) := ⟨some r.a, some r.b, some r.c, some r.d⟩

/-- Go on with the value of register `[i]` of four. -/
def needReg (r : Quad (Option Word)) (l : Nat → Location) (i : Nat) (k : Word → Result) : Result :=
  match r.get? i with
  | some o => need o (l i) k
  | none => .fault (.noSuchCell (l i))

/-! ## Memories (R38 to R40, R61) -/

/-- The value cell `i` holds, if it holds one (R10 MemRead). -/
def Memory.read {w : Nat} (m : Memory w) (i : Nat) : Option (BitVec w) :=
  match m with
  | [] => none
  | (k, v) :: rest => if i = k then some v else Memory.read rest i

/-- The memory with `v` in cell `i` (R10 MemWrite), indices kept rising. -/
def Memory.write {w : Nat} (m : Memory w) (i : Nat) (v : BitVec w) : Memory w :=
  match m with
  | [] => [(i, v)]
  | (k, x) :: rest =>
    if i < k then (i, v) :: (k, x) :: rest
    else if i = k then (i, v) :: rest
    else (k, x) :: Memory.write rest i v

/-- The canonical form: indices strictly rising, from `lo` on. -/
def Memory.wfFrom {w : Nat} (lo : Nat) (m : Memory w) : Bool :=
  match m with
  | [] => true
  | (k, _) :: rest => decide (lo ≤ k) && Memory.wfFrom (k + 1) rest

/-- The canonical form of a memory. An unlisted cell holds no value, so no listed value is left out of it. -/
def Memory.wf {w : Nat} (m : Memory w) : Bool := Memory.wfFrom 0 m

/-- Every listed cell is one of the `cap` cells the space has. -/
def Memory.within {w : Nat} (cap : Nat) (m : Memory w) : Bool := m.all fun c => decide (c.1 < cap)

/-- Cells `0 .. k-1` set to zero, the cells from `k` on kept (R241: `for every w in 0 .. NW-1: W[w] <- 0`). -/
def Memory.zeroBelow {w : Nat} (m : Memory w) (k : Nat) : Memory w :=
  (List.range k).map (fun i => (i, 0#w)) ++ m.filter fun c => decide (k ≤ c.1)


/-- Go on with the value of cell `i` of a space of `cap` cells; a cell that holds none must not be read, and the read is
a fault (R11, R21, R101 corner case 5). A listed cell exists; the bound is asked only of an
unlisted one, so that an access to a listed cell does not depend on the open parameter MAXBYTES (log entry 8). -/
def loadCell {w : Nat} (m : Memory w) (cap : Nat) (l : Nat → Location) (i : Nat) (k : BitVec w → Result) : Result :=
  match Memory.read m i with
  | some v => k v
  | none => if i < cap then .fault (.noValue (l i)) else .fault (.noSuchCell (l i))

/-- Go on with `v` stored in cell `i` of a space of `cap` cells; the bound is asked only of an unlisted cell. -/
def storeCell {w : Nat} (m : Memory w) (cap : Nat) (l : Nat → Location) (i : Nat) (v : BitVec w)
    (k : Memory w → Result) : Result :=
  if (Memory.read m i).isSome = true ∨ i < cap then k (Memory.write m i v) else .fault (.noSuchCell (l i))

/-! ## The sizes of the spaces (R7, R38 to R40, R57) -/

/-- `NB(N)`: blocks of the padded message of `n` bytes (R57). -/
def paddedBlocks (n : Nat) : Nat := (8 * n + 64) / 512 + 1

/-- `NW(N)`: words of the padded message of `n` bytes (R57). -/
def paddedWords (n : Nat) : Nat := ((8 * n + 64) / 512 + 1) * 16

/-- `ceil4(N)`: words that hold message bytes (R9, R27). -/
def ceil4 (n : Nat) : Nat := (n + 3) / 4

/-- `WCAP`: the number of cells of W (R7). -/
def wcap : Nat := paddedWords Config.maxBytes

/-- The number of cells of OUT (R40). -/
def outCells : Nat := 16

/-- A message of `n` bytes is one this engine accepts: `n <= MAXBYTES` (R7, R318). The empty message is, whatever
MAXBYTES is. -/
def fits (n : Nat) : Bool := n == 0 || decide (n ≤ Config.maxBytes)

/-- Read `IN[i]` (R38). -/
def loadIn (s : State) (i : Nat) (k : Byte → Result) : Result := loadCell s.inp Config.maxBytes .inCell i k

/-- Read `W[i]` (R39). -/
def loadW (s : State) (i : Nat) (k : Word → Result) : Result := loadCell s.w wcap .wCell i k

/-- Read `OUT[i]` (R40). -/
def loadOut (s : State) (i : Nat) (k : Byte → Result) : Result := loadCell s.out outCells .outCell i k

/-- Write `IN[i]` (R38). -/
def storeIn (s : State) (i : Nat) (v : Byte) (k : State → Result) : Result :=
  storeCell s.inp Config.maxBytes .inCell i v fun m => k (s.setIn m)

/-- Write `W[i]` (R39). -/
def storeW (s : State) (i : Nat) (v : Word) (k : State → Result) : Result :=
  storeCell s.w wcap .wCell i v fun m => k (s.setW m)

/-- Write `OUT[i]` (R40). -/
def storeOut (s : State) (i : Nat) (v : Byte) (k : State → Result) : Result :=
  storeCell s.out outCells .outCell i v fun m => k (s.setOut m)

/-! ## The exception, and reset -/

/-- TAKING THE EXCEPTION InvalidArgument (60_exceptions.md R281, R285): PHASE <- 15 and ERRCODE <- 1, and nothing else
is written. Nothing is saved and there is no handler. The way back is the next START or hardware reset (R287): there is
no return operation. -/
def raiseInvalidArgument (s : State) : State := (s.setPhase Phase.err).setErrcode 1#2

/-- Hardware reset (70_reset_and_hazards.md R310): the whole effect is R43. The host's coming actions and what it has
seen are outside the engine and stay. -/
def hardwareReset (s : State) : State := (State.reset.setPending s.pending).setSeen s.seen

end Sys2Proof.Machine
end

