-- ==== Sys2Proof/Machine/Operands.lean ====
section
/-! DEFINITION. The operands: the word operators of 00_scope.md R9, the mixing functions and tables of
42_compression.md, and every effective index of 20_memory.md R63. -/

namespace Sys2Proof.Machine

/-! ## Word operators (R9) -/

/-- `rotl32(x, s)`, for `1 <= s <= 31` (R9, R147). -/
def rotl32 (x : Word) (s : Nat) : Word := (x <<< s) ||| (x >>> (32 - s))

/-- Byte lane `p` of a word, `w[8p+7 : 8p]` (R8). -/
def byteLane (x : Word) (p : Nat) : Byte := x.extractLsb' (8 * p) 8

/-- A byte as a word shifted left by `k`; a byte is an unsigned value (R63). -/
def byteAt (b : Byte) (k : Nat) : Word := b.setWidth 32 <<< k

/-- `bswap32`: the full reversal of the four byte lanes (R9, R102, R107). -/
def bswap32 (x : Word) : Word :=
  byteAt (byteLane x 0) 24 ||| byteAt (byteLane x 1) 16 ||| byteAt (byteLane x 2) 8 ||| byteAt (byteLane x 3) 0

/-! ## The mixing functions (R140 to R143) -/

/-- `F` (R140). -/
def mixF (b c d : Word) : Word := (b &&& c) ||| (~~~b &&& d)

/-- `G` (R141). -/
def mixG (b c d : Word) : Word := (b &&& d) ||| (c &&& ~~~d)

/-- `H` (R142). -/
def mixH (b c d : Word) : Word := b ^^^ c ^^^ d

/-- `I` (R143). -/
def mixI (b c d : Word) : Word := c ^^^ (b ||| ~~~d)

/-- `mix_r` for round number `r` = 0..3 (R140 to R143). -/
def mix (r : Nat) (b c d : Word) : Word :=
  match r with
  | 0 => mixF b c d
  | 1 => mixG b c d
  | 2 => mixH b c d
  | _ => mixI b c d

/-! ## The tables (R144 to R146), indexed by the step number -/

/-- Message-word index `k(t)` (R144). -/
def wordIndex (t : Nat) : Nat :=
  match t / 16 with
  | 0 => t % 16
  | 1 => (5 * (t % 16) + 1) % 16
  | 2 => (3 * (t % 16) + 5) % 16
  | _ => (7 * (t % 16)) % 16

/-- `SROM[r]`, the four shift amounts of round `r` (R145). -/
def srom (r : Nat) : Quad Nat :=
  match r with
  | 0 => ⟨7, 12, 17, 22⟩
  | 1 => ⟨5, 9, 14, 20⟩
  | 2 => ⟨4, 11, 16, 23⟩
  | _ => ⟨6, 10, 15, 21⟩

/-- Shift amount `s(t) = SROM[t div 16][t mod 4]` (R145). -/
def shiftAmount (t : Nat) : Nat :=
  match t % 4 with
  | 0 => (srom (t / 16)).a
  | 1 => (srom (t / 16)).b
  | 2 => (srom (t / 16)).c
  | _ => (srom (t / 16)).d

/-- The 64 round constants as rule R146 lists them, one round a list (log entry 14). -/
def tromTable : List Word :=
  [0xd76aa478, 0xe8c7b756, 0x242070db, 0xc1bdceee,
   0xf57c0faf, 0x4787c62a, 0xa8304613, 0xfd469501,
   0x698098d8, 0x8b44f7af, 0xffff5bb1, 0x895cd7be,
   0x6b901122, 0xfd987193, 0xa679438e, 0x49b40821] ++
  [0xf61e2562, 0xc040b340, 0x265e5a51, 0xe9b6c7aa,
   0xd62f105d, 0x02441453, 0xd8a1e681, 0xe7d3fbc8,
   0x21e1cde6, 0xc33707d6, 0xf4d50d87, 0x455a14ed,
   0xa9e3e905, 0xfcefa3f8, 0x676f02d9, 0x8d2a4c8a] ++
  [0xfffa3942, 0x8771f681, 0x6d9d6122, 0xfde5380c,
   0xa4beea44, 0x4bdecfa9, 0xf6bb4b60, 0xbebfbc70,
   0x289b7ec6, 0xeaa127fa, 0xd4ef3085, 0x04881d05,
   0xd9d4d039, 0xe6db99e5, 0x1fa27cf8, 0xc4ac5665] ++
  [0xf4292244, 0x432aff97, 0xab9423a7, 0xfc93a039,
   0x655b59c3, 0x8f0ccc92, 0xffeff47d, 0x85845dd1,
   0x6fa87e4f, 0xfe2ce6e0, 0xa3014314, 0x4e0811a1,
   0xf7537e82, 0xbd3af235, 0x2ad7d2bb, 0xeb86d391]

/-- `TROM[t]` (R146). -/
def trom (t : Nat) : Word := tromTable.getD t 0#32

/-! ## One step (R150) -/

/-- The registers `(a, b, c, d)` after STEPt on message word `m`: all right-hand sides use the old values (R150). -/
def stepFn (t : Nat) (m : Word) (r : Quad Word) : Quad Word :=
  let tmp := r.a + mix (t / 16) r.b r.c r.d + m + trom t
  ⟨r.d, r.b + rotl32 tmp (shiftAmount t), r.b, r.c⟩

/-- The four initial constants of the State (R6, R241). -/
def initialState : Quad Word := ⟨0x67452301#32, 0xefcdab89#32, 0x98badcfe#32, 0x10325476#32⟩

/-- The four sums of FOLD (R244). -/
def foldFn (st wr : Quad Word) : Quad Word := ⟨st.a + wr.a, st.b + wr.b, st.c + wr.c, st.d + wr.d⟩

/-! ## Effective indices (R63) -/

/-- The word that holds byte `i`: `(8*i) div 32` (R50, R101, R103). -/
def codecWord (i : Nat) : Nat := (8 * i) / 32

/-- The bit offset of byte `i` in its word at the codec: `24 - ((8*i) mod 32)` (R50, R101, R103). -/
def codecShift (i : Nat) : Nat := 24 - (8 * i) % 32

/-- The word that takes the terminator bit: `LEN >> 5` (R121). -/
def padWord (len : BitVec 64) : Nat := len.toNat / 32

/-- The terminator in its word: `0x80 << (LEN mod 32)` (R121). -/
def padBit (len : BitVec 64) : Word := 0x80#32 <<< (len.toNat % 32)

/-- `LEN[31:0]` (R123). -/
def lenLow (len : BitVec 64) : Word := len.extractLsb' 0 32

/-- `LEN[63:32]` (R123). -/
def lenHigh (len : BitVec 64) : Word := len.extractLsb' 32 32

/-- The cell of W that STEPt of block `j` reads: `16*j + k(t)` (R150). -/
def stepWord (j t : Nat) : Nat := 16 * j + wordIndex t

end Sys2Proof.Machine
end

