-- ==== Sys2Proof/Machine/Sequencer.lean ====
section
/-! DEFINITION. What `pc` becomes after each micro-operation (43_controller.md R250 to R259). Where a rule says that
PHASE stays, PHASE is not written. -/

namespace Sys2Proof.Machine

/-- After INIT of a message of `n` bytes (R250). -/
def afterInit (n : Nat) (s : State) : State :=
  s.setPc (if 0 < n then Phase.pack else Phase.padbit) 0 0 0#6

/-- After PACKB of byte `i` of `n` (R251). -/
def afterPackb (n i : Nat) (s : State) : State :=
  if i + 1 < n then s.setIdx (some (i + 1)) else (s.setIdx (some 0)).setPhase Phase.swap

/-- After BSWAP of word `i` of `nwm` (R252). -/
def afterBswap (nwm i : Nat) (s : State) : State :=
  if i + 1 < nwm then s.setIdx (some (i + 1)) else (s.setIdx (some 0)).setPhase Phase.padbit

/-- After PADBIT (R253). -/
def afterPadbit (s : State) : State := s.setPhase Phase.padlen

/-- After PADLEN (R254). -/
def afterPadlen (s : State) : State := (s.setJ (some 0)).setPhase Phase.load

/-- After LOADW (R255). -/
def afterLoadw (s : State) : State := (s.setT (some 0#6)).setPhase Phase.step

/-- After STEPt (R256). -/
def afterStep (t : BitVec 6) (s : State) : State :=
  if t.toNat < 63 then s.setT (some (t + 1#6)) else (s.setT (some 0#6)).setPhase Phase.fold

/-- After FOLD of block `j` of `nb` (R257). -/
def afterFold (nb j : Nat) (s : State) : State :=
  if j + 1 < nb then (s.setJ (some (j + 1))).setPhase Phase.load
  else (s.setIdx (some 0)).setPhase Phase.fswap

/-- After FSWAP of register `i` (R258). -/
def afterFswap (i : Nat) (s : State) : State :=
  if i < 3 then s.setIdx (some (i + 1)) else (s.setIdx (some 0)).setPhase Phase.unpk

/-- After UNPKB of byte `i` (R259): at the last one `idx` is left as it is. -/
def afterUnpkb (i : Nat) (s : State) : State :=
  if i < 15 then s.setIdx (some (i + 1)) else s.setPhase Phase.done

end Sys2Proof.Machine
end

