-- ==== Sys2Proof/Machine/Codec.lean ====
section
/-! DEFINITION. WordCodec: PACKB, BSWAP, UNPKB (40_wordcodec.md R101 to R103). Each meaning is the data rule and the
sequencing rule together, one atomic transition (R62). -/

namespace Sys2Proof.Machine

/-- PACKB (R101, R251): `W[w] <- W[w] OR (IN[i] << sh)`. -/
def execPackb (s : State) : Result :=
  need s.idx .idx fun i =>
  loadIn s i fun b =>
  loadW s (codecWord i) fun x =>
  need s.n .n fun n =>
  storeW s (codecWord i) (x ||| byteAt b (codecShift i)) fun s' =>
  .next (afterPackb n i s')

/-- BSWAP (R102, R252): `W[w] <- bswap32(W[w])`. -/
def execBswap (s : State) : Result :=
  need s.idx .idx fun i =>
  loadW s i fun x =>
  need s.nwm .nwm fun nwm =>
  storeW s i (bswap32 x) fun s' =>
  .next (afterBswap nwm i s')

/-- UNPKB (R103, R259): `OUT[i] <- (Q[w] >> sh) AND 0xFF`. -/
def execUnpkb (s : State) : Result :=
  need s.idx .idx fun i =>
  needReg s.q .q (codecWord i) fun x =>
  storeOut s i ((x >>> codecShift i).setWidth 8) fun s' =>
  .next (afterUnpkb i s')

end Sys2Proof.Machine
end

