-- ==== Sys2Proof/Machine/Compression.lean ====
section
/-! DEFINITION. CompressionEngine: STEP0 to STEP63 (42_compression.md R150, R160 to R223). -/

namespace Sys2Proof.Machine

/-- STEPt (R150, R256), for the step number the micro-operation word carries. -/
def execStepT (t : BitVec 6) (s : State) : Result :=
  needQuad s.wr .wr fun r =>
  need s.j .j fun j =>
  loadW s (stepWord j t.toNat) fun m =>
  .next (afterStep t (s.setWr (stepFn t.toNat m r).valued))

/-- STEP0 (R160). -/
def execStep0 (s : State) : Result := execStepT 0#6 s

/-- STEP1 (R161). -/
def execStep1 (s : State) : Result := execStepT 1#6 s

/-- STEP2 (R162). -/
def execStep2 (s : State) : Result := execStepT 2#6 s

/-- STEP3 (R163). -/
def execStep3 (s : State) : Result := execStepT 3#6 s

/-- STEP4 (R164). -/
def execStep4 (s : State) : Result := execStepT 4#6 s

/-- STEP5 (R165). -/
def execStep5 (s : State) : Result := execStepT 5#6 s

/-- STEP6 (R166). -/
def execStep6 (s : State) : Result := execStepT 6#6 s

/-- STEP7 (R167). -/
def execStep7 (s : State) : Result := execStepT 7#6 s

/-- STEP8 (R168). -/
def execStep8 (s : State) : Result := execStepT 8#6 s

/-- STEP9 (R169). -/
def execStep9 (s : State) : Result := execStepT 9#6 s

/-- STEP10 (R170). -/
def execStep10 (s : State) : Result := execStepT 10#6 s

/-- STEP11 (R171). -/
def execStep11 (s : State) : Result := execStepT 11#6 s

/-- STEP12 (R172). -/
def execStep12 (s : State) : Result := execStepT 12#6 s

/-- STEP13 (R173). -/
def execStep13 (s : State) : Result := execStepT 13#6 s

/-- STEP14 (R174). -/
def execStep14 (s : State) : Result := execStepT 14#6 s

/-- STEP15 (R175). -/
def execStep15 (s : State) : Result := execStepT 15#6 s

/-- STEP16 (R176). -/
def execStep16 (s : State) : Result := execStepT 16#6 s

/-- STEP17 (R177). -/
def execStep17 (s : State) : Result := execStepT 17#6 s

/-- STEP18 (R178). -/
def execStep18 (s : State) : Result := execStepT 18#6 s

/-- STEP19 (R179). -/
def execStep19 (s : State) : Result := execStepT 19#6 s

/-- STEP20 (R180). -/
def execStep20 (s : State) : Result := execStepT 20#6 s

/-- STEP21 (R181). -/
def execStep21 (s : State) : Result := execStepT 21#6 s

/-- STEP22 (R182). -/
def execStep22 (s : State) : Result := execStepT 22#6 s

/-- STEP23 (R183). -/
def execStep23 (s : State) : Result := execStepT 23#6 s

/-- STEP24 (R184). -/
def execStep24 (s : State) : Result := execStepT 24#6 s

/-- STEP25 (R185). -/
def execStep25 (s : State) : Result := execStepT 25#6 s

/-- STEP26 (R186). -/
def execStep26 (s : State) : Result := execStepT 26#6 s

/-- STEP27 (R187). -/
def execStep27 (s : State) : Result := execStepT 27#6 s

/-- STEP28 (R188). -/
def execStep28 (s : State) : Result := execStepT 28#6 s

/-- STEP29 (R189). -/
def execStep29 (s : State) : Result := execStepT 29#6 s

/-- STEP30 (R190). -/
def execStep30 (s : State) : Result := execStepT 30#6 s

/-- STEP31 (R191). -/
def execStep31 (s : State) : Result := execStepT 31#6 s

/-- STEP32 (R192). -/
def execStep32 (s : State) : Result := execStepT 32#6 s

/-- STEP33 (R193). -/
def execStep33 (s : State) : Result := execStepT 33#6 s

/-- STEP34 (R194). -/
def execStep34 (s : State) : Result := execStepT 34#6 s

/-- STEP35 (R195). -/
def execStep35 (s : State) : Result := execStepT 35#6 s

/-- STEP36 (R196). -/
def execStep36 (s : State) : Result := execStepT 36#6 s

/-- STEP37 (R197). -/
def execStep37 (s : State) : Result := execStepT 37#6 s

/-- STEP38 (R198). -/
def execStep38 (s : State) : Result := execStepT 38#6 s

/-- STEP39 (R199). -/
def execStep39 (s : State) : Result := execStepT 39#6 s

/-- STEP40 (R200). -/
def execStep40 (s : State) : Result := execStepT 40#6 s

/-- STEP41 (R201). -/
def execStep41 (s : State) : Result := execStepT 41#6 s

/-- STEP42 (R202). -/
def execStep42 (s : State) : Result := execStepT 42#6 s

/-- STEP43 (R203). -/
def execStep43 (s : State) : Result := execStepT 43#6 s

/-- STEP44 (R204). -/
def execStep44 (s : State) : Result := execStepT 44#6 s

/-- STEP45 (R205). -/
def execStep45 (s : State) : Result := execStepT 45#6 s

/-- STEP46 (R206). -/
def execStep46 (s : State) : Result := execStepT 46#6 s

/-- STEP47 (R207). -/
def execStep47 (s : State) : Result := execStepT 47#6 s

/-- STEP48 (R208). -/
def execStep48 (s : State) : Result := execStepT 48#6 s

/-- STEP49 (R209). -/
def execStep49 (s : State) : Result := execStepT 49#6 s

/-- STEP50 (R210). -/
def execStep50 (s : State) : Result := execStepT 50#6 s

/-- STEP51 (R211). -/
def execStep51 (s : State) : Result := execStepT 51#6 s

/-- STEP52 (R212). -/
def execStep52 (s : State) : Result := execStepT 52#6 s

/-- STEP53 (R213). -/
def execStep53 (s : State) : Result := execStepT 53#6 s

/-- STEP54 (R214). -/
def execStep54 (s : State) : Result := execStepT 54#6 s

/-- STEP55 (R215). -/
def execStep55 (s : State) : Result := execStepT 55#6 s

/-- STEP56 (R216). -/
def execStep56 (s : State) : Result := execStepT 56#6 s

/-- STEP57 (R217). -/
def execStep57 (s : State) : Result := execStepT 57#6 s

/-- STEP58 (R218). -/
def execStep58 (s : State) : Result := execStepT 58#6 s

/-- STEP59 (R219). -/
def execStep59 (s : State) : Result := execStepT 59#6 s

/-- STEP60 (R220). -/
def execStep60 (s : State) : Result := execStepT 60#6 s

/-- STEP61 (R221). -/
def execStep61 (s : State) : Result := execStepT 61#6 s

/-- STEP62 (R222). -/
def execStep62 (s : State) : Result := execStepT 62#6 s

/-- STEP63 (R223). -/
def execStep63 (s : State) : Result := execStepT 63#6 s

end Sys2Proof.Machine
end

