-- ==== Sys2Proof/Machine/Flags.lean ====
section
/-! DEFINITION. The engine has no carry, overflow, zero or sign flag and no condition code (10_state.md R32): no
micro-operation computes one. What there is of status is here: the STATUS view (R36) and the classes of PHASE. -/

namespace Sys2Proof.Machine

/-- PHASE is 0, 14 or 15: the engine issues nothing (R29). -/
def quiescent (phase : BitVec 4) : Bool := phase == Phase.idle || phase == Phase.done || phase == Phase.err

/-- BUSY: PHASE is 1..10 (R29, R36). -/
def busy (phase : BitVec 4) : Bool := 1 ≤ phase.toNat && phase.toNat ≤ 10

/-- PHASE is one of the values R29 lets it take: not 11, 12, 13. -/
def legalPhase (phase : BitVec 4) : Bool := quiescent phase || busy phase

/-- STATUS, 6 bits: PHASE in bits 3:0, ERRCODE in bits 5:4 (R36). -/
def State.status (s : State) : BitVec 6 := s.errcode ++ s.phase

/-- Derived view BUSY of STATUS (R36). -/
def State.isBusy (s : State) : Bool := busy s.phase

/-- Derived view DONE of STATUS (R36). -/
def State.isDone (s : State) : Bool := s.phase == Phase.done

/-- Derived view ERR of STATUS (R36). -/
def State.isErr (s : State) : Bool := s.phase == Phase.err

end Sys2Proof.Machine
end

