-- ==== Sys2Proof/Machine/Controller.lean ====
section
/-! DEFINITION. DigestController: INIT, LOADW, FOLD, FSWAP, and the host commands START and NOP (43_controller.md R240,
R241, R243 to R245; 30_encoding.md R86). -/

namespace Sys2Proof.Machine

/-- What INIT writes besides `pc`, for a message of `n` bytes (R241). -/
def initData (n : Nat) (s : State) : State :=
  ((((((s.setSt initialState.valued).setLen (some (BitVec.ofNat 64 (8 * n)))).setNwm (some (ceil4 n))).setNw
    (some (paddedWords n))).setNb (some (paddedWords n / 16))).setW (Memory.zeroBelow s.w (paddedWords n))).setOut []

/-- INIT (R241, R250). A message above MAXBYTES has no padded form here (R7, R126): it is refused, as START refuses it,
and no run reaches that (log entry 18). -/
def execInit (s : State) : Result :=
  need s.n .n fun n =>
  if fits n then .next (afterInit n (initData n s)) else .refused .messageTooLong

/-- LOADW (R243, R255): `(a, b, c, d) <- ST`. -/
def execLoadw (s : State) : Result :=
  needQuad s.st .st fun st =>
  .next (afterLoadw (s.setWr st.valued))

/-- FOLD (R244, R257): `ST[i] <- ST[i] +32 WR[i]`. -/
def execFold (s : State) : Result :=
  needQuad s.st .st fun st =>
  needQuad s.wr .wr fun wr =>
  need s.j .j fun j =>
  need s.nb .nb fun nb =>
  .next (afterFold nb j (s.setSt (foldFn st wr).valued))

/-- FSWAP (R245, R258): `Q[idx] <- bswap32(ST[idx])`. -/
def execFswap (s : State) : Result :=
  need s.idx .idx fun i =>
  needReg s.st .st i fun x =>
  .next (afterFswap i (s.setQ (s.q.set i (some (bswap32 x)))))

/-- START (R240), an atomic action of the host on a quiescent engine. PRESENT is looked at before N (R284): PRESENT = 0
takes the exception InvalidArgument whatever N holds; with PRESENT = 1 a valueless N and an N above MAXBYTES are
refused (R318). -/
def execStart (s : State) : Result :=
  if quiescent s.phase then
    need s.present .present fun p =>
    if p then
      match s.n with
      | some n =>
        if fits n then .next ((s.setErrcode 0#2).setPc Phase.init 0 0 0#6) else .refused .messageTooLong
      | none => .refused .messageTooLong
    else .next (raiseInvalidArgument s)
  else .refused .startNotQuiescent

/-- NOP (R35, R86): no effect. -/
def execNop (s : State) : Result := .next s

end Sys2Proof.Machine
end

