-- ==== Sys2Proof/Machine/Padding.lean ====
section
/-! DEFINITION. PaddingEncoder: PADBIT, PADLEN (41_padding.md R121, R123). The zero fill needs no micro-operation:
INIT has written the zeros (R122). -/

namespace Sys2Proof.Machine

/-- PADBIT (R121, R253): `W[LEN >> 5] <- W[LEN >> 5] OR (0x80 << (LEN mod 32))`. -/
def execPadbit (s : State) : Result :=
  need s.len .len fun len =>
  loadW s (padWord len) fun x =>
  storeW s (padWord len) (x ||| padBit len) fun s' =>
  .next (afterPadbit s')

/-- PADLEN (R123, R254): `W[NW-2] <- LEN[31:0]; W[NW-1] <- LEN[63:32]`. An NW below 2, which INIT never writes, names
no such cells. -/
def execPadlen (s : State) : Result :=
  need s.len .len fun len =>
  need s.nw .nw fun nw =>
  if nw < 2 then .fault (.noSuchCell (.wCell nw))
  else
    storeW s (nw - 2) (lenLow len) fun s₁ =>
    storeW s₁ (nw - 1) (lenHigh len) fun s₂ =>
    .next (afterPadlen s₂)

end Sys2Proof.Machine
end

