-- ==== Sys2Proof/Machine/HostPort.lean ====
section
/-! DEFINITION. What the host does to the engine: the ports of 10_state.md section 6 with the access rights of R45, and
hardware reset (70_reset_and_hazards.md R310). -/

namespace Sys2Proof.Machine

/-- A host write to IN, N or PRESENT: only while PHASE is 0, 14 or 15 (R45, R319). -/
def whenQuiescent (s : State) (r : Result) : Result :=
  if quiescent s.phase then r else .refused .hostWriteNotQuiescent

/-- The state in which the host has read `v`. Reading has no side effect on the engine (R36, R62). -/
def State.see (s : State) (v : Seen) : State := s.setSeen (s.seen ++ [v])

/-- A write of CMD (R35, R86, R90): the command it decodes to. -/
def hostCommand (c : BitVec 2) (s : State) : Result :=
  match decodeCmd c with
  | .ok i => exec i s
  | .error _ => .refused .reservedCmd

/-- A read of `OUT[i]`: while PHASE is not 14 the model must treat it as a read of no value, a fault (R321, R21, U5). -/
def hostReadOut (i : Nat) (s : State) : Result :=
  loadOut s i fun b =>
  if s.phase = Phase.done then .next (s.see (.out i b)) else .fault (.noValue (.outCell i))

/-- One action of the host (R45). -/
def hostAct (a : HostAction) (s : State) : Result :=
  match a with
  | .writeIn i b => whenQuiescent s (storeIn s i b .next)
  | .writeN v => whenQuiescent s (.next (s.setN (some v)))
  | .writePresent v => whenQuiescent s (.next (s.setPresent (some v)))
  | .command c => hostCommand c s
  | .readStatus => .next (s.see (.status s.status))
  | .readN => need s.n .n fun v => .next (s.see (.n v))
  | .readPresent => need s.present .present fun v => .next (s.see (.present v))
  | .readOut i => hostReadOut i s
  | .readIn _ => .refused .hostAccessNever
  | .readCmd => .refused .hostAccessNever
  | .writeStatus _ => .refused .hostAccessNever
  | .writeOut _ _ => .refused .hostAccessNever
  | .reset => .next (hardwareReset s)

end Sys2Proof.Machine
end

