-- ==== Sys2Proof/Machine/Engine.lean ====
section
/-! DEFINITION. The engine's own step: which micro-operation word the sequencer issues and what becomes of it; and how
an instruction is put where the next step runs it. -/

namespace Sys2Proof.Machine

/-- Go on with the micro-operation word the sequencer issues (R29, R80): in P_STEP the pair (PHASE, t); in every other
phase (PHASE, 000000), since there `t` is not read (R30, log entry 6). -/
def issueWord (s : State) (k : BitVec 10 → Result) : Result :=
  if s.phase = Phase.step then need s.t .t fun t => k (s.phase ++ t) else k (s.phase ++ 0#6)

/-- An engine step (43_controller.md section 5): in a busy phase it issues the micro-operation with code PHASE; in a
quiescent phase the engine has no step of its own and nothing changes (R260). -/
def engineStep (s : State) : Result :=
  if quiescent s.phase then .next s
  else
    issueWord s fun u =>
    match decodeUop u with
    | .ok i => exec i s
    | .error _ => .refused .reservedUop

/-! ## Placing an instruction (log entry 7)

The engine fetches nothing (R2, R28): a micro-operation is issued because the sequencer has reached its phase, and in a
run every place it reads then holds a value (R30, R261). To run one alone, the sequencer is put in that phase, and a
place it may read that holds no value is given one: what INIT leaves for the empty message, and zero where INIT leaves
nothing. A place that holds a value keeps it. -/

/-- Registers with `v` in each one that holds no value. -/
def Quad.supply (r : Quad (Option Word)) (v : Quad Word) : Quad (Option Word) :=
  ⟨some (r.a.getD v.a), some (r.b.getD v.b), some (r.c.getD v.c), some (r.d.getD v.d)⟩

/-- The memory with zero in each of the cells `0 .. k-1` that holds no value. -/
def Memory.supply {w : Nat} (m : Memory w) (k : Nat) : Memory w :=
  match k with
  | 0 => m
  | k + 1 =>
    let m' := Memory.supply m k
    match Memory.read m' k with
    | some _ => m'
    | none => Memory.write m' k 0#w

/-- The host's coming actions, one step later, so that the next step is the engine's. -/
def postpone (p : List HostEvent) : List HostEvent :=
  match p with
  | [] => []
  | e :: rest => { e with after := e.after + 1 } :: rest

/-- The state with a value in every place a micro-operation may read. -/
def State.supplied (s : State) : State :=
  { s with
    wr := s.wr.supply initialState
    st := s.st.supply initialState
    q := s.q.supply ⟨0#32, 0#32, 0#32, 0#32⟩
    len := some (s.len.getD 0#64)
    nwm := some (s.nwm.getD 0)
    nw := some (s.nw.getD 16)
    nb := some (s.nb.getD 1)
    idx := some (s.idx.getD 0)
    j := some (s.j.getD 0)
    n := some (s.n.getD 0)
    inp := Memory.supply s.inp 1
    w := Memory.supply s.w 16 }

/-- The sequencer about to issue the micro-operation word `u`. -/
def placeUop (u : BitVec 10) (s : State) : State :=
  let s' := s.supplied
  { s' with
    phase := phaseField u
    t := some (if phaseField u = Phase.step then lowField u else s.t.getD 0#6)
    pending := postpone s.pending }

/-- The host about to write `c` to CMD; for START with the ports it reads holding a value. -/
def placeCommand (c : BitVec 2) (s : State) : State :=
  let s' := { s with pending := ⟨0, .command c⟩ :: s.pending }
  if c = 1#2 then { s' with n := some (s.n.getD 0), present := some (s.present.getD true) } else s'

/-- The state whose next step runs the instruction that the bits `w` of an opcode-table row stand for. -/
def placeTableWord (s : State) (nbits w : Nat) : State :=
  if nbits ≤ 8 then placeCommand (BitVec.ofNat 2 w) s else placeUop (BitVec.ofNat 10 w) s

end Sys2Proof.Machine
end

