-- ==== Sys2Proof/Machine/Step.lean ====
section
/-! DEFINITION. One step of the whole: the host's next action if it is due, else an engine step (log entry 4). -/

namespace Sys2Proof.Machine

/-- One step. A host action that is due is done; otherwise the engine takes a step and the wait before the host's next
action is one step shorter. -/
def step (s : State) : Host.Outcome State Fault Refusal :=
  match s.pending with
  | [] => engineStep s
  | ⟨0, a⟩ :: rest => hostAct a (s.setPending rest)
  | ⟨k + 1, a⟩ :: rest => engineStep (s.setPending (⟨k, a⟩ :: rest))

/-- `s` with the instruction of an opcode-table row placed where `step` takes its next one (log entry 7). -/
def State.withFetchWord (s : State) (nbits w : Nat) : State := placeTableWord s nbits w

end Sys2Proof.Machine
end

