-- ==== Sys2Proof/Machine/Digest.lean ====
section
/-! DEFINITION. What the rules say about whole sequences, as functions of the message alone: the codec's two functions
(40_wordcodec.md R104, R105), the padded message (R58, R127), the digest a run computes (43_controller.md R262), and the
micro-operations a run issues (30_encoding.md R92, R261). Nothing here is a step of the engine. -/

namespace Sys2Proof.Machine

/-! ## WordCodec on whole sequences -/

/-- `B(i)`: byte `i` of `b`, zero beyond its end (R51, R104). -/
def byteOr0 (b : List Byte) (i : Nat) : Byte := b.getD i 0#8

/-- Word `w` of `b` in big-endian placement (R104). -/
def bigWord (b : List Byte) (w : Nat) : Word :=
  byteAt (byteOr0 b (4 * w)) 24 ||| byteAt (byteOr0 b (4 * w + 1)) 16 |||
    byteAt (byteOr0 b (4 * w + 2)) 8 ||| byteAt (byteOr0 b (4 * w + 3)) 0

/-- Word `w` of `b` in the little-endian domain (R51). -/
def littleWord (b : List Byte) (w : Nat) : Word :=
  byteAt (byteOr0 b (4 * w)) 0 ||| byteAt (byteOr0 b (4 * w + 1)) 8 |||
    byteAt (byteOr0 b (4 * w + 2)) 16 ||| byteAt (byteOr0 b (4 * w + 3)) 24

/-- `bytesToWords` (R104): `ceil4(n)` words, a partial group zero-padded. -/
def bytesToWords (b : List Byte) : List Word := (List.range (ceil4 b.length)).map (bigWord b)

/-- `wordsToBytes` (R105): exactly `4*m` bytes. -/
def wordsToBytes (x : List Word) : List Byte :=
  (List.range (4 * x.length)).map fun i => (x.getD (i / 4) 0#32 >>> (24 - 8 * (i % 4))).setWidth 8

/-! ## The padded message -/

/-- `L = 8*N` as the 64-bit length (R125, R126). -/
def bitLength (b : List Byte) : BitVec 64 := BitVec.ofNat 64 (8 * b.length)

/-- Word `w` of the padded message of `b` (R58, and `M[w]` of R262). -/
def paddedWord (b : List Byte) (w : Nat) : Word :=
  if w = paddedWords b.length - 1 then lenHigh (bitLength b)
  else if w = paddedWords b.length - 2 then lenLow (bitLength b)
  else if w = 8 * b.length / 32 then littleWord b w ||| 0x80#32 <<< (8 * b.length % 32)
  else littleWord b w

/-- Word `w` of the message padded in the big-endian domain, before the swap of every word (R127). -/
def bigPaddedWord (b : List Byte) (w : Nat) : Word :=
  if w = paddedWords b.length - 1 then bswap32 (lenHigh (bitLength b))
  else if w = paddedWords b.length - 2 then bswap32 (lenLow (bitLength b))
  else if w = 8 * b.length / 32 then bigWord b w ||| 0x80#32 <<< (24 - 8 * b.length % 32)
  else bigWord b w

/-! ## The digest (R262) -/

/-- The working registers after the steps `0 .. k-1` on message words `M[0..15]` (R262, R256). -/
def stepsFn (m : Nat → Word) (k : Nat) (r : Quad Word) : Quad Word :=
  match k with
  | 0 => r
  | k + 1 => stepFn k (m (wordIndex k)) (stepsFn m k r)

/-- The State after one block: its 64 steps and the add-back (R262, R92 `COMPRESS j`). -/
def compressBlock (m : Nat → Word) (st : Quad Word) : Quad Word := foldFn st (stepsFn m 64 st)

/-- The State after the blocks `0 .. k-1` of the padded message of `b` (R262, R257). -/
def stateAfterBlocks (b : List Byte) (k : Nat) : Quad Word :=
  match k with
  | 0 => initialState
  | k + 1 => compressBlock (fun i => paddedWord b (16 * k + i)) (stateAfterBlocks b k)

/-- Register `[i]` of four words. -/
def Quad.word (r : Quad Word) (i : Nat) : Word := (r.get? i).getD 0#32

/-- Byte `i` of the little-endian serialisation of a State (R53): byte `4i+p` is lane `p` of `S_i`. -/
def digestByte (st : Quad Word) (i : Nat) : Byte := byteLane (st.word (i / 4)) (i % 4)

/-- `digest_bytes` (R262). -/
def digestBytes (b : List Byte) : List Byte :=
  (List.range 16).map (digestByte (stateAfterBlocks b (paddedBlocks b.length)))

/-! ## The micro-operations of a run (R92, R261) -/

/-- `COMPRESS j` (R92): LOADW, the 64 steps, FOLD. -/
def blockTrace : List Instr := [.loadw] ++ stepInstrs ++ [.fold]

/-- `k` times a list. -/
def repeated (k : Nat) (l : List Instr) : List Instr :=
  match k with
  | 0 => []
  | k + 1 => l ++ repeated k l

/-- `DIGEST` (R92) for a message of `n` bytes: INIT, PACK, SWAP, PAD, every COMPRESS, FINAL. -/
def runTrace (n : Nat) : List Instr :=
  [.init] ++ List.replicate n .packb ++ List.replicate (ceil4 n) .bswap ++ [.padbit, .padlen] ++
    repeated (paddedBlocks n) blockTrace ++ List.replicate 4 .fswap ++ List.replicate 16 .unpkb

/-- The number of micro-operations of a run (R261): `N + ceil4(N) + 66*NB + 23`. -/
def runLength (n : Nat) : Nat := n + ceil4 n + 66 * paddedBlocks n + 23

end Sys2Proof.Machine
end

