-- ==== Sys2Proof/Machine/Output.lean ====
section
/-! DEFINITION. Observation functions outside the engine: the renderings of the 16 bytes of OUT (44_output_format.md
R270, R271, R273). They are no instruction and change nothing. The text rendering (R272) is out of scope. -/

namespace Sys2Proof.Machine

/-- The sixteen bytes of OUT, if every cell holds one (R271 `asBytes`). -/
def State.outBytes (s : State) : Option (List Byte) := (List.range outCells).mapM (Memory.read s.out)

/-- The n-th character of `0123456789abcdef` (R270). -/
def hexDigit (n : Nat) : Char :=
  ['0', '1', '2', '3', '4', '5', '6', '7', '8', '9', 'a', 'b', 'c', 'd', 'e', 'f'].getD n '0'

/-- The value of a lowercase hexadecimal digit (R273). -/
def hexValue (c : Char) : Option Nat :=
  ['0', '1', '2', '3', '4', '5', '6', '7', '8', '9', 'a', 'b', 'c', 'd', 'e', 'f'].idxOf? c

/-- `hex` (R270): two characters a byte, high nibble first, byte 0 first. -/
def hexRender (bytes : List Byte) : List Char :=
  match bytes with
  | [] => []
  | b :: rest => hexDigit (b.toNat / 16) :: hexDigit (b.toNat % 16) :: hexRender rest

/-- The bytes a hexadecimal string stands for (R273), if it has an even number of digits. -/
def hexRead (h : List Char) : Option (List Byte) :=
  match h with
  | [] => some []
  | [_] => none
  | x :: y :: rest =>
    match hexValue x, hexValue y, hexRead rest with
    | some hi, some lo, some bytes => some (BitVec.ofNat 8 (16 * hi + lo) :: bytes)
    | _, _, _ => none

end Sys2Proof.Machine
end

