-- ==== Sys2Proof/Safety.lean ====
section
/-! DEFINITION. What every state of a machine that runs meets, and what a run needs of the host: the terms the
statements use. -/

namespace Sys2Proof.Machine

/-- Four registers that all hold a value. -/
def Quad.allValued (r : Quad (Option Word)) : Prop := ∃ v : Quad Word, r = v.valued

/-- The message is in IN: every `IN[i]` with `i < n` holds a byte (R312 (1)). -/
def messageLoaded (s : State) (n : Nat) : Prop := ∀ i < n, ∃ b, Memory.read s.inp i = some b

/-- IN holds the bytes of `b` (R38). -/
def holdsMessage (s : State) (b : List Byte) : Prop := ∀ i < b.length, Memory.read s.inp i = some (byteOr0 b i)

/-- The three memories are canonical and list only cells that exist (R38, R39, R40). -/
def MemoryOk (s : State) : Prop :=
  (Memory.wf s.inp = true ∧ Memory.within Config.maxBytes s.inp = true) ∧
  (Memory.wf s.w = true ∧ Memory.within wcap s.w = true) ∧
  (Memory.wf s.out = true ∧ Memory.within outCells s.out = true)

/-- PHASE takes only R29's values, ERRCODE only 0 and 1, and ERRCODE is 1 exactly in phase ERR (R29, R37, R285, R287). -/
def StatusOk (s : State) : Prop :=
  legalPhase s.phase = true ∧ s.errcode = if s.phase = Phase.err then 1#2 else 0#2

/-- In a busy phase the ports hold an accepted message length and the counters hold values (R30, R240, R318, R319). -/
def PortsOk (s : State) (n : Nat) : Prop :=
  s.n = some n ∧ n ≤ Config.maxBytes ∧ s.present = some true ∧ (∃ i, s.idx = some i) ∧ (∃ j, s.j = some j) ∧
    ∃ t, s.t = some t

/-- After INIT the lengths are those of the message, the State registers hold values, and so does every word of the
padded message (R27, R44, R241). -/
def LengthsOk (s : State) (n : Nat) : Prop :=
  s.len = some (BitVec.ofNat 64 (8 * n)) ∧ s.nwm = some (ceil4 n) ∧ s.nw = some (paddedWords n) ∧
    s.nb = some (paddedBlocks n) ∧ s.st.allValued ∧ ∀ i < paddedWords n, ∃ x, Memory.read s.w i = some x

/-- The element counter is below `k` (R30). -/
def IdxBelow (s : State) (k : Nat) : Prop := ∃ i < k, s.idx = some i

/-- The block counter is below the number of blocks (R30). -/
def BlockBelow (s : State) (n : Nat) : Prop := ∃ j < paddedBlocks n, s.j = some j

/-- The registers `Q[i]` with `i < k` hold values. -/
def QFilled (s : State) (k : Nat) : Prop := ∀ i < k, ∃ x, s.q.get? i = some (some x)

/-- Exactly the cells `OUT[i]` with `i < k` hold values (R40). -/
def OutFilled (s : State) (k : Nat) : Prop := ∀ i, (∃ b, Memory.read s.out i = some b) ↔ i < k

/-- What the phase promises (R30, R40): the ranges of the counters, and values in the registers that are read next. -/
def PhaseOk (s : State) (n : Nat) : Prop :=
  (s.phase = Phase.pack → IdxBelow s n) ∧
  (s.phase = Phase.swap → IdxBelow s (ceil4 n)) ∧
  (s.phase = Phase.load ∨ s.phase = Phase.step ∨ s.phase = Phase.fold → BlockBelow s n) ∧
  (s.phase = Phase.step ∨ s.phase = Phase.fold → s.wr.allValued) ∧
  (s.phase = Phase.fswap → ∃ i < 4, s.idx = some i ∧ QFilled s i) ∧
  (s.phase = Phase.unpk → QFilled s 4 ∧ ∃ i < 16, s.idx = some i ∧ OutFilled s i) ∧
  (s.phase ≠ Phase.unpk → ∀ i, Memory.read s.out i = none)

/-- What holds in every state the machine can reach, and every step keeps (R21, R29, R30, R37 to R40). -/
def LegalState (s : State) : Prop :=
  MemoryOk s ∧ StatusOk s ∧
  (s.phase = Phase.init → ∃ n, PortsOk s n) ∧
  (busy s.phase = true ∧ s.phase ≠ Phase.init → ∃ n, PortsOk s n ∧ LengthsOk s n ∧ PhaseOk s n) ∧
  (s.phase = Phase.done → OutFilled s 16)

/-- The host has nothing due before the engine's next `k` steps. -/
def undisturbed (s : State) (k : Nat) : Prop := ∀ e ∈ s.pending.head?, k ≤ e.after

/-- A host that keeps R312 and R318 to R321 has just started the message `b`, and will not touch the engine during the
run (R261): the engine is about to issue INIT. -/
def Started (s : State) (b : List Byte) : Prop :=
  s.phase = Phase.init ∧ s.n = some b.length ∧ b.length ≤ Config.maxBytes ∧ holdsMessage s b ∧
    undisturbed s (runLength b.length)

/-- The micro-operation word the sequencer is about to issue, (PHASE, t) in P_STEP and (PHASE, 000000) elsewhere,
decodes to `i` (R29, R80). -/
def Issues (s : State) (i : Instr) : Prop :=
  ∃ u, (s.phase ≠ Phase.step ∧ u = s.phase ++ 0#6 ∨ s.phase = Phase.step ∧ ∃ t, s.t = some t ∧ u = Phase.step ++ t) ∧
    decodeUop u = .ok i

/-- What a host that keeps R312 writes to present the message `b` and start it: the bytes, `N`, `PRESENT`, then START. -/
def bootActions (b : List Byte) : List HostEvent :=
  (List.range b.length).map (fun i => ⟨0, .writeIn i (byteOr0 b i)⟩) ++
    [⟨0, .writeN b.length⟩, ⟨0, .writePresent true⟩, ⟨0, .command 1#2⟩]

/-- PHASE and ERRCODE are 0 and every other piece of the state of R20 holds no value (R43). -/
def HoldsNothing (s : State) : Prop :=
  s.phase = 0#4 ∧ s.errcode = 0#2 ∧ (∀ i < 4, s.wr.get? i = some none ∧ s.st.get? i = some none ∧ s.q.get? i = some none) ∧
    s.len = none ∧ s.nwm = none ∧ s.nw = none ∧ s.nb = none ∧ s.idx = none ∧ s.j = none ∧ s.t = none ∧ s.n = none ∧
    s.present = none ∧ ∀ a, Memory.read s.inp a = none ∧ Memory.read s.w a = none ∧ Memory.read s.out a = none

/-- The rule of one STEPt (42_compression.md R160 to R223): the word `u` is decoded as `i`; with mixing function `f`,
message-word index `k`, shift amount `sh` and round constant `T`, from registers `a, b, c, d` and message word `m` of
block `j`, `i` answers the state whose registers are `d, b +32 rotl32(tmp, sh), b, c`, and `pc` moves on (R256). -/
def StepRule (i : Instr) (u : BitVec 10) (f : Word → Word → Word → Word) (k sh : Nat) (T : Word) : Prop :=
  decodeUop u = .ok i ∧
    ∀ (s : State) (a b c d m : Word) (j : Nat), s.wr = ⟨some a, some b, some c, some d⟩ → s.j = some j →
      Memory.read s.w (16 * j + k) = some m →
      exec i s = .next
        (let s' := { s with wr := ⟨some d, some (b + rotl32 (a + f b c d + m + T) sh), some b, some c⟩ }
         if u.toNat % 64 < 63 then { s' with t := some (BitVec.ofNat 6 (u.toNat % 64 + 1)) }
         else { s' with t := some 0#6, phase := 8#4 })

/-! ## Frames: what two states share -/

/-- The registers the host sees or writes, and the model's own two fields. -/
def SamePorts (s t : State) : Prop :=
  t.n = s.n ∧ t.present = s.present ∧ t.errcode = s.errcode ∧ t.pending = s.pending ∧ t.seen = s.seen

/-- The four length registers. -/
def SameLengths (s t : State) : Prop := t.len = s.len ∧ t.nwm = s.nwm ∧ t.nw = s.nw ∧ t.nb = s.nb

/-- Every cell of IN. -/
def SameIn (s t : State) : Prop := ∀ a, Memory.read t.inp a = Memory.read s.inp a

/-- Every cell of W but those in `cells`. -/
def SameWOutside (cells : List Nat) (s t : State) : Prop := ∀ a, a ∉ cells → Memory.read t.w a = Memory.read s.w a

/-- Every cell of OUT but those in `cells`. -/
def SameOutOutside (cells : List Nat) (s t : State) : Prop := ∀ a, a ∉ cells → Memory.read t.out a = Memory.read s.out a

/-- Every cell of the three spaces. -/
def SameMemories (s t : State) : Prop := SameIn s t ∧ SameWOutside [] s t ∧ SameOutOutside [] s t

end Sys2Proof.Machine
end

