-- ==== Sys2Proof/Certificates/Slice0/Obligations.lean ====
section
/-! DEFINITION. The statements for the provers, in the order of OBLIGATIONS.json. `Started`, `LegalState`, `undisturbed`,
`StepRule` and the frame predicates are in Sys2Proof/Safety.lean; the functions of the message alone are in
Sys2Proof/Machine/Digest.lean. -/

section
open Sys2Proof Sys2Proof.Machine

/-- O1. Decoding inverts encoding, and each defined word has exactly one reading (derived from R80, R85, R86). -/
def Obligations.DecodeEncodeInverse : Prop :=
  (∀ i : Instr, decode (encode i) = .ok i) ∧
    ∀ (c : CodeWord) (i : Instr), decode c = .ok i → encode i = c

/-- O2. The decoder answers invalid on exactly the reserved micro-operation words (derived from R85, R87). -/
def Obligations.ReservedUopWords : Prop :=
  (∀ u : BitVec 10, decodeUop u = .error .reservedUop ↔
    u.toNat / 64 ∈ [0, 11, 12, 13, 14, 15] ∨ u.toNat / 64 ∈ [1, 2, 3, 4, 5, 6, 8, 9, 10] ∧ u.toNat % 64 ≠ 0) ∧
    ((List.range 1024).filter fun w => (decodeUop (BitVec.ofNat 10 w)).isOk).length = 73

/-- O3. Words written out from the encoding table decode to the instructions they stand for (derived from R85, R86, R87). -/
def Obligations.SampleWords : Prop :=
  decodeUop 0b0001000000#10 = .ok .init ∧ decodeUop 0b0010000000#10 = .ok .packb ∧
  decodeUop 0b0011000000#10 = .ok .bswap ∧ decodeUop 0b0100000000#10 = .ok .padbit ∧
  decodeUop 0b0101000000#10 = .ok .padlen ∧ decodeUop 0b0110000000#10 = .ok .loadw ∧
  decodeUop 0b0111000000#10 = .ok .step0 ∧ decodeUop 0b0111010000#10 = .ok .step16 ∧
  decodeUop 0b0111100011#10 = .ok .step35 ∧ decodeUop 0b0111111111#10 = .ok .step63 ∧
  decodeUop 0b1000000000#10 = .ok .fold ∧ decodeUop 0b1001000000#10 = .ok .fswap ∧
  decodeUop 0b1010000000#10 = .ok .unpkb ∧ decodeCmd 0#2 = .ok .nop ∧ decodeCmd 1#2 = .ok .start ∧
  (∀ u ∈ [0x000#10, 0x081#10, 0x2c0#10, 0x380#10, 0x3ff#10], decodeUop u = .error .reservedUop)

/-- O4. A write of CMD: 0 is NOP and has no effect, 1 is START, 2 and 3 are refused (R90). -/
def Obligations.CommandPort : Prop :=
  ∀ s : State,
    hostCommand 0#2 s = exec .nop s ∧ exec .nop s = .next s ∧ hostCommand 1#2 s = exec .start s ∧
    hostCommand 2#2 s = .refused .reservedCmd ∧ hostCommand 3#2 s = .refused .reservedCmd

/-- O5. While no host action is due, a step runs the instruction the issued word decodes to (derived from R28, R29, R80,
R82; rests on log entries 4 and 6). -/
def Obligations.EngineStepRunsDecoded : Prop :=
  ∀ (s : State) (u : BitVec 10) (i : Instr),
    (s.phase ≠ 7#4 ∧ u = s.phase ++ 0#6 ∨ s.phase = 7#4 ∧ ∃ t, s.t = some t ∧ u = 7#4 ++ t) →
    decodeUop u = .ok i →
    (s.pending = [] → step s = exec i s) ∧
    ∀ (k : Nat) (a : HostAction) (rest : List HostEvent), s.pending = ⟨k + 1, a⟩ :: rest →
      step s = exec i { s with pending := ⟨k, a⟩ :: rest }

/-- O6. When a host action is due, a step is that action; a due write of CMD runs the decoded command (derived from R35,
R45, R86; rests on log entry 4). -/
def Obligations.CommandStepRunsDecoded : Prop :=
  ∀ (s : State) (rest : List HostEvent),
    (∀ a : HostAction, s.pending = ⟨0, a⟩ :: rest → step s = hostAct a { s with pending := rest }) ∧
    ∀ (c : BitVec 2) (i : Instr), s.pending = ⟨0, .command c⟩ :: rest → decodeCmd c = .ok i →
      step s = exec i { s with pending := rest }

/-- O7. PHASE alone, with t in P_STEP, selects what the engine issues (derived from R29, R81, R87, R260; rests on log
entry 6). -/
def Obligations.PhaseSelectsInstruction : Prop :=
  ∀ s : State, s.pending = [] →
    (s.phase = 1#4 → step s = exec .init s) ∧ (s.phase = 2#4 → step s = exec .packb s) ∧
    (s.phase = 3#4 → step s = exec .bswap s) ∧ (s.phase = 4#4 → step s = exec .padbit s) ∧
    (s.phase = 5#4 → step s = exec .padlen s) ∧ (s.phase = 6#4 → step s = exec .loadw s) ∧
    (∀ t, s.phase = 7#4 → s.t = some t → step s = exec (stepInstr t) s) ∧
    (s.phase = 8#4 → step s = exec .fold s) ∧ (s.phase = 9#4 → step s = exec .fswap s) ∧
    (s.phase = 10#4 → step s = exec .unpkb s) ∧
    (s.phase = 0#4 ∨ s.phase = 14#4 ∨ s.phase = 15#4 → step s = .next s) ∧
    (s.phase = 11#4 ∨ s.phase = 12#4 ∨ s.phase = 13#4 → step s = .refused .reservedUop)

/-- O8. In a quiescent phase only START and reset touch the engine: OUT keeps the Digest (derived from R36, R40, R45,
R260; rests on log entry 4). -/
def Obligations.QuiescentEngineStays : Prop :=
  (∀ s : State, s.phase = 0#4 ∨ s.phase = 14#4 ∨ s.phase = 15#4 → engineStep s = .next s) ∧
    ∀ (a : HostAction) (s t : State), hostAct a s = .next t → (∀ c, a ≠ .command c) → a ≠ .reset →
      t = { s with n := t.n, present := t.present, inp := t.inp, seen := t.seen }

/-- O9. PACKB: the word 0x080, its result, its sequencing, and its fault on an unwritten byte (derived from R21, R63,
R101, R251; rests on log entries 1 and 8). -/
def Obligations.PackbResult : Prop :=
  decodeUop 0x080#10 = .ok .packb ∧
  (∀ (s : State) (i n : Nat) (b : Byte) (x : Word), s.idx = some i → s.n = some n → Memory.read s.inp i = some b →
    Memory.read s.w (8 * i / 32) = some x →
    exec .packb s = .next
      (let s' := { s with w := Memory.write s.w (8 * i / 32) (x ||| b.setWidth 32 <<< (24 - 8 * i % 32)) }
       if i + 1 < n then { s' with idx := some (i + 1) } else { s' with idx := some 0, phase := 3#4 })) ∧
  ∀ (s : State) (i : Nat), s.idx = some i → Memory.read s.inp i = none →
    exec .packb s = .fault (if i < Config.maxBytes then .noValue (.inCell i) else .noSuchCell (.inCell i))

/-- O10. PACKB puts byte i in lane 3 - (i mod 4) of word i div 4 and keeps the other lanes (derived from R50, R101). -/
def Obligations.PackbPlacesByte : Prop :=
  ∀ (s t : State) (i : Nat) (b : Byte) (x : Word), exec .packb s = .next t → s.idx = some i →
    Memory.read s.inp i = some b → Memory.read s.w (i / 4) = some x → byteLane x (3 - i % 4) = 0#8 →
    ∃ y, Memory.read t.w (i / 4) = some y ∧ byteLane y (3 - i % 4) = b ∧
      ∀ p < 4, p ≠ 3 - i % 4 → byteLane y p = byteLane x p

/-- O11. BSWAP: the word 0x0C0, its result and its sequencing (R102). -/
def Obligations.BswapResult : Prop :=
  decodeUop 0x0c0#10 = .ok .bswap ∧
  (∀ (s : State) (i m : Nat) (x : Word), s.idx = some i → s.nwm = some m → Memory.read s.w i = some x →
    exec .bswap s = .next
      (let x' := (x.extractLsb' 0 8).setWidth 32 <<< 24 ||| (x.extractLsb' 8 8).setWidth 32 <<< 16 |||
          (x.extractLsb' 16 8).setWidth 32 <<< 8 ||| (x.extractLsb' 24 8).setWidth 32
       let s' := { s with w := Memory.write s.w i x' }
       if i + 1 < m then { s' with idx := some (i + 1) } else { s' with idx := some 0, phase := 4#4 })) ∧
  (∀ x : Word, (∀ p < 4, byteLane x p = byteLane x 0) → bswap32 x = x) ∧ bswap32 0#32 = 0#32 ∧
  ∀ x : Word, bswap32 (bswap32 x) = x

/-- O12. UNPKB: the word 0x280, its result and its sequencing (R103, R259). -/
def Obligations.UnpkbResult : Prop :=
  decodeUop 0x280#10 = .ok .unpkb ∧
  ∀ (s : State) (i : Nat) (x : Word), s.idx = some i → i ≤ 15 → s.q.get? (8 * i / 32) = some (some x) →
    exec .unpkb s = .next
      (let s' := { s with out := Memory.write s.out i ((x >>> (24 - 8 * i % 32)).setWidth 8) }
       if i < 15 then { s' with idx := some (i + 1) } else { s' with phase := 14#4 })

/-- O13. The byte-lane laws of bswap32 (R107). -/
def Obligations.ByteSwapLaws : Prop :=
  (∀ (x : Word) (p : Nat), p < 4 → byteLane (bswap32 x) p = byteLane x (3 - p)) ∧
  (∀ x : Word, bswap32 (bswap32 x) = x) ∧ Function.Bijective bswap32 ∧
  (∀ x y : Word, bswap32 (x &&& y) = bswap32 x &&& bswap32 y ∧ bswap32 (x ||| y) = bswap32 x ||| bswap32 y ∧
    bswap32 (x ^^^ y) = bswap32 x ^^^ bswap32 y ∧ bswap32 (~~~x) = ~~~(bswap32 x)) ∧
  (∃ x y : Word, bswap32 (x + y) ≠ bswap32 x + bswap32 y) ∧
  ∃ (x : Word) (s : Nat), 1 ≤ s ∧ s ≤ 31 ∧ bswap32 (rotl32 x s) ≠ rotl32 (bswap32 x) s

/-- O14. The round-trip law of the codec (R106). -/
def Obligations.CodecRoundTrip : Prop :=
  (∀ b : List Byte, b.length % 4 = 0 → wordsToBytes (bytesToWords b) = b) ∧
  (∀ b : List Byte, wordsToBytes (bytesToWords b) =
    b ++ List.replicate (4 * ((b.length + 3) / 4) - b.length) 0#8) ∧
  (∀ x : List Word, bytesToWords (wordsToBytes x) = x) ∧
  (∀ b : List Byte, (bytesToWords b).length = (b.length + 3) / 4) ∧
  ∀ x : List Word, (wordsToBytes x).length = 4 * x.length

/-- O15. PADBIT: the word 0x100, its result and its sequencing (R121, R253). -/
def Obligations.PadbitResult : Prop :=
  decodeUop 0x100#10 = .ok .padbit ∧
  (∀ (s : State) (L : BitVec 64) (x : Word), s.len = some L → Memory.read s.w (L.toNat / 32) = some x →
    exec .padbit s = .next
      { s with w := Memory.write s.w (L.toNat / 32) (x ||| 0x80#32 <<< (L.toNat % 32)), phase := 5#4 }) ∧
  (∀ L : Nat, L % 8 = 0 → 0x80#32 <<< (L % 32) ∈ [0x00000080#32, 0x00008000#32, 0x00800000#32, 0x80000000#32]) ∧
  ∀ n : Nat, 8 * n / 32 ≤ paddedWords n - 3 ∧
    8 * n / 32 = if n % 4 = 0 then (n + 3) / 4 else (n + 3) / 4 - 1

/-- O16. PADLEN: the word 0x140, its result and its sequencing (R123). -/
def Obligations.PadlenResult : Prop :=
  decodeUop 0x140#10 = .ok .padlen ∧
  ∀ (s : State) (L : BitVec 64) (nw : Nat), s.len = some L → s.nw = some nw → 2 ≤ nw →
    ((∃ x, Memory.read s.w (nw - 2) = some x) ∨ nw - 2 < wcap) →
    ((∃ x, Memory.read s.w (nw - 1) = some x) ∨ nw - 1 < wcap) →
    exec .padlen s = .next
      { s with
        w := Memory.write (Memory.write s.w (nw - 2) (BitVec.ofNat 32 (L.toNat % 2 ^ 32))) (nw - 1)
          (BitVec.ofNat 32 (L.toNat / 2 ^ 32))
        j := some 0
        phase := 6#4 }

/-- O17. The padded message is the fewest whole blocks, and the terminator never meets the length (R57, R59, R126). -/
def Obligations.PaddedSizes : Prop :=
  (∀ n : Nat, paddedWords n = ((8 * n + 64) / 512 + 1) * 16 ∧ paddedBlocks n = paddedWords n / 16 ∧
    paddedBlocks n = (8 * n + 64) / 512 + 1 ∧ 1 ≤ paddedBlocks n ∧ 8 * n + 65 ≤ 512 * paddedBlocks n ∧
    ∀ m, 8 * n + 65 ≤ 512 * m → paddedBlocks n ≤ m) ∧
  (∀ n : Nat, 8 * n / 32 + 3 ≤ paddedWords n ∧ paddedWords n - 3 - 8 * n / 32 ≤ 15) ∧
  (∀ z ≤ 15, ∃ n, paddedWords n = 8 * n / 32 + 3 + z) ∧
  Config.maxBytes ≤ 2 ^ 61 - 1 ∧ ∀ n ≤ Config.maxBytes, 8 * n < 2 ^ 64

/-- O18. Padding before the swap of every word gives the same padded message (R127). -/
def Obligations.BigEndianPaddingAgrees : Prop :=
  ∀ (b : List Byte) (w : Nat), w < paddedWords b.length → bswap32 (bigPaddedWord b w) = paddedWord b w

/-- O19. INIT: the word 0x040, everything it writes, what it leaves, and its sequencing (R241, R250). -/
def Obligations.InitResult : Prop :=
  decodeUop 0x040#10 = .ok .init ∧
  ∀ (s : State) (n : Nat), s.n = some n → n ≤ Config.maxBytes →
    ∃ t : State, exec .init s = .next t ∧
      t.st = ⟨some 0x67452301#32, some 0xefcdab89#32, some 0x98badcfe#32, some 0x10325476#32⟩ ∧
      t.len = some (BitVec.ofNat 64 (8 * n)) ∧ t.nwm = some ((n + 3) / 4) ∧
      t.nw = some (((8 * n + 64) / 512 + 1) * 16) ∧ t.nb = some (((8 * n + 64) / 512 + 1) * 16 / 16) ∧
      (∀ w, Memory.read t.w w = if w < ((8 * n + 64) / 512 + 1) * 16 then some 0#32 else Memory.read s.w w) ∧
      (∀ i, Memory.read t.out i = none) ∧
      t.idx = some 0 ∧ t.j = some 0 ∧ t.t = some 0#6 ∧ t.phase = (if 0 < n then 2#4 else 4#4) ∧
      t.wr = s.wr ∧ t.q = s.q ∧ SameIn s t ∧ SamePorts s t

/-- O20. LOADW: the word 0x180, its result and its sequencing (R243, R255). -/
def Obligations.LoadwResult : Prop :=
  decodeUop 0x180#10 = .ok .loadw ∧
  (∀ (s : State) (a b c d : Word), s.st = ⟨some a, some b, some c, some d⟩ →
    exec .loadw s = .next { s with wr := ⟨some a, some b, some c, some d⟩, t := some 0#6, phase := 7#4 }) ∧
  (∀ s t : State, exec .init s = .next t →
    t.st = ⟨some 0x67452301#32, some 0xefcdab89#32, some 0x98badcfe#32, some 0x10325476#32⟩) ∧
  ∀ (i : Instr) (s t : State), i ≠ .init → i ≠ .fold → exec i s = .next t → t.st = s.st

/-- O21. FOLD: the word 0x200, its result and its sequencing (R244, R257). -/
def Obligations.FoldResult : Prop :=
  decodeUop 0x200#10 = .ok .fold ∧
  ∀ (s : State) (A B C D a b c d : Word) (k nb : Nat), s.st = ⟨some A, some B, some C, some D⟩ →
    s.wr = ⟨some a, some b, some c, some d⟩ → s.j = some k → s.nb = some nb →
    exec .fold s = .next
      (let s' := { s with st := ⟨some (A + a), some (B + b), some (C + c), some (D + d)⟩ }
       if k + 1 < nb then { s' with j := some (k + 1), phase := 6#4 } else { s' with idx := some 0, phase := 9#4 })

/-- O22. FSWAP: the word 0x240, its result and its sequencing (R245, R258). -/
def Obligations.FswapResult : Prop :=
  decodeUop 0x240#10 = .ok .fswap ∧
  ∀ (s : State) (i : Nat) (x : Word), s.idx = some i → i ≤ 3 → s.st.get? i = some (some x) →
    ∃ q : Quad (Option Word), (∀ k < 4, q.get? k = if k = i then some (some (bswap32 x)) else s.q.get? k) ∧
      exec .fswap s = .next
        (let s' := { s with q := q }
         if i < 3 then { s' with idx := some (i + 1) } else { s' with idx := some 0, phase := 10#4 })

/-- O23. STEPt for every t: the word 0x1C0 + t, its result and its sequencing (R150, R256). -/
def Obligations.StepResult : Prop :=
  ∀ t : BitVec 6, decodeUop (0x1c0#10 + t.setWidth 10) = .ok (stepInstr t) ∧
    ∀ (s : State) (a b c d m : Word) (j : Nat), s.wr = ⟨some a, some b, some c, some d⟩ → s.j = some j →
      Memory.read s.w (16 * j + wordIndex t.toNat) = some m →
      exec (stepInstr t) s = .next
        (let f := if t.toNat / 16 = 0 then mixF b c d else if t.toNat / 16 = 1 then mixG b c d
          else if t.toNat / 16 = 2 then mixH b c d else mixI b c d
         let s' := { s with wr := ⟨some d, some (b + rotl32 (a + f + m + trom t.toNat) (shiftAmount t.toNat)),
          some b, some c⟩ }
         if t.toNat < 63 then { s' with t := some (t + 1#6) } else { s' with t := some 0#6, phase := 8#4 })

/-- O24. STEP0 to STEP7: their words, constants, results and sequencing (R160, R161, R162, R163, R164, R165, R166, R167). -/
def Obligations.RoundOneFirstSteps : Prop :=
  StepRule .step0 0x1c0#10 mixF 0 7 0xd76aa478#32 ∧
  StepRule .step1 0x1c1#10 mixF 1 12 0xe8c7b756#32 ∧
  StepRule .step2 0x1c2#10 mixF 2 17 0x242070db#32 ∧
  StepRule .step3 0x1c3#10 mixF 3 22 0xc1bdceee#32 ∧
  StepRule .step4 0x1c4#10 mixF 4 7 0xf57c0faf#32 ∧
  StepRule .step5 0x1c5#10 mixF 5 12 0x4787c62a#32 ∧
  StepRule .step6 0x1c6#10 mixF 6 17 0xa8304613#32 ∧
  StepRule .step7 0x1c7#10 mixF 7 22 0xfd469501#32

/-- O25. STEP8 to STEP15: their words, constants, results and sequencing (R168, R169, R170, R171, R172, R173, R174, R175). -/
def Obligations.RoundOneLastSteps : Prop :=
  StepRule .step8 0x1c8#10 mixF 8 7 0x698098d8#32 ∧
  StepRule .step9 0x1c9#10 mixF 9 12 0x8b44f7af#32 ∧
  StepRule .step10 0x1ca#10 mixF 10 17 0xffff5bb1#32 ∧
  StepRule .step11 0x1cb#10 mixF 11 22 0x895cd7be#32 ∧
  StepRule .step12 0x1cc#10 mixF 12 7 0x6b901122#32 ∧
  StepRule .step13 0x1cd#10 mixF 13 12 0xfd987193#32 ∧
  StepRule .step14 0x1ce#10 mixF 14 17 0xa679438e#32 ∧
  StepRule .step15 0x1cf#10 mixF 15 22 0x49b40821#32

/-- O26. STEP16 to STEP23: their words, constants, results and sequencing (R176, R177, R178, R179, R180, R181, R182,
R183). -/
def Obligations.RoundTwoFirstSteps : Prop :=
  StepRule .step16 0x1d0#10 mixG 1 5 0xf61e2562#32 ∧
  StepRule .step17 0x1d1#10 mixG 6 9 0xc040b340#32 ∧
  StepRule .step18 0x1d2#10 mixG 11 14 0x265e5a51#32 ∧
  StepRule .step19 0x1d3#10 mixG 0 20 0xe9b6c7aa#32 ∧
  StepRule .step20 0x1d4#10 mixG 5 5 0xd62f105d#32 ∧
  StepRule .step21 0x1d5#10 mixG 10 9 0x02441453#32 ∧
  StepRule .step22 0x1d6#10 mixG 15 14 0xd8a1e681#32 ∧
  StepRule .step23 0x1d7#10 mixG 4 20 0xe7d3fbc8#32

/-- O27. STEP24 to STEP31: their words, constants, results and sequencing (R184, R185, R186, R187, R188, R189, R190,
R191). -/
def Obligations.RoundTwoLastSteps : Prop :=
  StepRule .step24 0x1d8#10 mixG 9 5 0x21e1cde6#32 ∧
  StepRule .step25 0x1d9#10 mixG 14 9 0xc33707d6#32 ∧
  StepRule .step26 0x1da#10 mixG 3 14 0xf4d50d87#32 ∧
  StepRule .step27 0x1db#10 mixG 8 20 0x455a14ed#32 ∧
  StepRule .step28 0x1dc#10 mixG 13 5 0xa9e3e905#32 ∧
  StepRule .step29 0x1dd#10 mixG 2 9 0xfcefa3f8#32 ∧
  StepRule .step30 0x1de#10 mixG 7 14 0x676f02d9#32 ∧
  StepRule .step31 0x1df#10 mixG 12 20 0x8d2a4c8a#32

/-- O28. STEP32 to STEP39: their words, constants, results and sequencing (R192, R193, R194, R195, R196, R197, R198,
R199). -/
def Obligations.RoundThreeFirstSteps : Prop :=
  StepRule .step32 0x1e0#10 mixH 5 4 0xfffa3942#32 ∧
  StepRule .step33 0x1e1#10 mixH 8 11 0x8771f681#32 ∧
  StepRule .step34 0x1e2#10 mixH 11 16 0x6d9d6122#32 ∧
  StepRule .step35 0x1e3#10 mixH 14 23 0xfde5380c#32 ∧
  StepRule .step36 0x1e4#10 mixH 1 4 0xa4beea44#32 ∧
  StepRule .step37 0x1e5#10 mixH 4 11 0x4bdecfa9#32 ∧
  StepRule .step38 0x1e6#10 mixH 7 16 0xf6bb4b60#32 ∧
  StepRule .step39 0x1e7#10 mixH 10 23 0xbebfbc70#32

/-- O29. STEP40 to STEP47: their words, constants, results and sequencing (R200, R201, R202, R203, R204, R205, R206,
R207). -/
def Obligations.RoundThreeLastSteps : Prop :=
  StepRule .step40 0x1e8#10 mixH 13 4 0x289b7ec6#32 ∧
  StepRule .step41 0x1e9#10 mixH 0 11 0xeaa127fa#32 ∧
  StepRule .step42 0x1ea#10 mixH 3 16 0xd4ef3085#32 ∧
  StepRule .step43 0x1eb#10 mixH 6 23 0x04881d05#32 ∧
  StepRule .step44 0x1ec#10 mixH 9 4 0xd9d4d039#32 ∧
  StepRule .step45 0x1ed#10 mixH 12 11 0xe6db99e5#32 ∧
  StepRule .step46 0x1ee#10 mixH 15 16 0x1fa27cf8#32 ∧
  StepRule .step47 0x1ef#10 mixH 2 23 0xc4ac5665#32

/-- O30. STEP48 to STEP55: their words, constants, results and sequencing (R208, R209, R210, R211, R212, R213, R214,
R215). -/
def Obligations.RoundFourFirstSteps : Prop :=
  StepRule .step48 0x1f0#10 mixI 0 6 0xf4292244#32 ∧
  StepRule .step49 0x1f1#10 mixI 7 10 0x432aff97#32 ∧
  StepRule .step50 0x1f2#10 mixI 14 15 0xab9423a7#32 ∧
  StepRule .step51 0x1f3#10 mixI 5 21 0xfc93a039#32 ∧
  StepRule .step52 0x1f4#10 mixI 12 6 0x655b59c3#32 ∧
  StepRule .step53 0x1f5#10 mixI 3 10 0x8f0ccc92#32 ∧
  StepRule .step54 0x1f6#10 mixI 10 15 0xffeff47d#32 ∧
  StepRule .step55 0x1f7#10 mixI 1 21 0x85845dd1#32

/-- O31. STEP56 to STEP63: their words, constants, results and sequencing (R216, R217, R218, R219, R220, R221, R222,
R223). -/
def Obligations.RoundFourLastSteps : Prop :=
  StepRule .step56 0x1f8#10 mixI 8 6 0x6fa87e4f#32 ∧
  StepRule .step57 0x1f9#10 mixI 15 10 0xfe2ce6e0#32 ∧
  StepRule .step58 0x1fa#10 mixI 6 15 0xa3014314#32 ∧
  StepRule .step59 0x1fb#10 mixI 13 21 0x4e0811a1#32 ∧
  StepRule .step60 0x1fc#10 mixI 4 6 0xf7537e82#32 ∧
  StepRule .step61 0x1fd#10 mixI 11 10 0xbd3af235#32 ∧
  StepRule .step62 0x1fe#10 mixI 2 15 0x2ad7d2bb#32 ∧
  StepRule .step63 0x1ff#10 mixI 9 21 0xeb86d391#32

/-- O32. The four mixing functions bit by bit, and the rounds that use them (R140, R141, R142, R143). -/
def Obligations.MixingFunctions : Prop :=
  (∀ (b c d : Word) (n : Nat), n < 32 →
    (mixF b c d).getLsbD n = (if b.getLsbD n then c.getLsbD n else d.getLsbD n) ∧
    (mixG b c d).getLsbD n = (if d.getLsbD n then b.getLsbD n else c.getLsbD n) ∧
    (mixH b c d).getLsbD n = ((b.getLsbD n ^^ c.getLsbD n) ^^ d.getLsbD n) ∧
    (mixI b c d).getLsbD n = (c.getLsbD n ^^ (b.getLsbD n || !d.getLsbD n))) ∧
  (∀ b c d : Word, mixF b c d = (b &&& c) ||| (~~~b &&& d) ∧ (b &&& c) &&& (~~~b &&& d) = 0#32 ∧
    mixG b c d = (b &&& d) ||| (c &&& ~~~d) ∧ mixG b c d = mixF d b c) ∧
  ∀ (t : Nat) (b c d : Word), (t < 16 → mix (t / 16) b c d = mixF b c d) ∧
    (16 ≤ t ∧ t < 32 → mix (t / 16) b c d = mixG b c d) ∧ (32 ≤ t ∧ t < 48 → mix (t / 16) b c d = mixH b c d) ∧
    (48 ≤ t ∧ t < 64 → mix (t / 16) b c d = mixI b c d)

/-- O33. The message-word schedule, its permutations, and the shift table (R144, R145). -/
def Obligations.ScheduleAndShifts : Prop :=
  (∀ i < 16, wordIndex i = i ∧ wordIndex (16 + i) = (5 * i + 1) % 16 ∧ wordIndex (32 + i) = (3 * i + 5) % 16 ∧
    wordIndex (48 + i) = 7 * i % 16) ∧
  (List.range 64).map wordIndex =
    [0, 1, 2, 3, 4, 5, 6, 7, 8, 9, 10, 11, 12, 13, 14, 15] ++ [1, 6, 11, 0, 5, 10, 15, 4, 9, 14, 3, 8, 13, 2, 7, 12] ++
    [5, 8, 11, 14, 1, 4, 7, 10, 13, 0, 3, 6, 9, 12, 15, 2] ++ [0, 7, 14, 5, 12, 3, 10, 1, 8, 15, 6, 13, 4, 11, 2, 9] ∧
  (∀ r < 4, ∀ k < 16, ∃ i < 16, wordIndex (16 * r + i) = k ∧ ∀ i' < 16, wordIndex (16 * r + i') = k → i' = i) ∧
  (∀ i < 16, shiftAmount i = [7, 12, 17, 22].getD (i % 4) 0 ∧ shiftAmount (16 + i) = [5, 9, 14, 20].getD (i % 4) 0 ∧
    shiftAmount (32 + i) = [4, 11, 16, 23].getD (i % 4) 0 ∧ shiftAmount (48 + i) = [6, 10, 15, 21].getD (i % 4) 0) ∧
  ∀ t < 64, 4 ≤ shiftAmount t ∧ shiftAmount t ≤ 23

/-- O34. rotl32 moves bit n to bit (n + s) mod 32 and loses none (derived from R9, R147). -/
def Obligations.RotateMovesBits : Prop :=
  ∀ (x : Word) (s : Nat), 1 ≤ s → s ≤ 31 →
    (∀ n < 32, (rotl32 x s).getLsbD ((n + s) % 32) = x.getLsbD n) ∧ rotl32 (rotl32 x s) (32 - s) = x

/-- O35. START on a quiescent engine: accepted with a message, InvalidArgument without one (R240). -/
def Obligations.StartResult : Prop :=
  decodeCmd 1#2 = .ok .start ∧
  ∀ s : State,
    (s.phase = 0#4 ∨ s.phase = 14#4 ∨ s.phase = 15#4 →
      (∀ n, s.present = some true → s.n = some n → n ≤ Config.maxBytes →
        exec .start s = .next
          { s with errcode := 0#2, phase := 1#4, idx := some 0, j := some 0, t := some 0#6 }) ∧
      (∀ n, s.present = some true → s.n = some n → Config.maxBytes < n → ∃ r, exec .start s = .refused r) ∧
      (s.present = some false → exec .start s = .next { s with phase := 15#4, errcode := 1#2 })) ∧
    (1 ≤ s.phase.toNat ∧ s.phase.toNat ≤ 10 → ∃ r, exec .start s = .refused r)

/-- O36. InvalidArgument: raised by START with PRESENT = 0 alone, whatever N holds, and what it writes (R281, R284, R285). -/
def Obligations.InvalidArgument : Prop :=
  (∀ s : State, s.phase = 0#4 ∨ s.phase = 14#4 ∨ s.phase = 15#4 → s.present = some false →
    exec .start s = .next { s with phase := 15#4, errcode := 1#2 }) ∧
  ∀ (i : Instr) (s t : State), exec i s = .next t →
    (t.errcode = 1#2 ∧ s.errcode ≠ 1#2 ∨ t.phase = 15#4 ∧ s.phase ≠ 15#4) → i = .start ∧ s.present = some false

/-- O37. START is refused while busy and for a message above MAXBYTES, and faults without PRESENT (R318, R320). -/
def Obligations.StartRefused : Prop :=
  ∀ s : State,
    (1 ≤ s.phase.toNat ∧ s.phase.toNat ≤ 10 → exec .start s = .refused .startNotQuiescent) ∧
    (s.phase = 0#4 ∨ s.phase = 14#4 ∨ s.phase = 15#4 →
      (s.present = some true → (s.n = none ∨ ∃ n, s.n = some n ∧ Config.maxBytes < n) →
        exec .start s = .refused .messageTooLong) ∧
      (s.present = none → exec .start s = .fault (.noValue .present)))

/-- O38. A host write to IN, N or PRESENT while busy is refused (R319). -/
def Obligations.HostWritesWhileBusy : Prop :=
  ∀ s : State, 1 ≤ s.phase.toNat → s.phase.toNat ≤ 10 →
    (∀ i b, hostAct (.writeIn i b) s = .refused .hostWriteNotQuiescent) ∧
    (∀ v, hostAct (.writeN v) s = .refused .hostWriteNotQuiescent) ∧
    ∀ v, hostAct (.writePresent v) s = .refused .hostWriteNotQuiescent

/-- O39. What the host may write and read, and what it never may (derived from R33, R34, R38, R45; rests on log entries 4
and 12). -/
def Obligations.HostPortAccess : Prop :=
  ∀ s : State,
    (s.phase = 0#4 ∨ s.phase = 14#4 ∨ s.phase = 15#4 →
      (∀ v, hostAct (.writeN v) s = .next { s with n := some v }) ∧
      (∀ v, hostAct (.writePresent v) s = .next { s with present := some v }) ∧
      (∀ i b, ((∃ x, Memory.read s.inp i = some x) ∨ i < Config.maxBytes) →
        hostAct (.writeIn i b) s = .next { s with inp := Memory.write s.inp i b })) ∧
    (∀ v, s.n = some v → hostAct .readN s = .next { s with seen := s.seen ++ [.n v] }) ∧
    (s.n = none → hostAct .readN s = .fault (.noValue .n)) ∧
    (∀ v, s.present = some v → hostAct .readPresent s = .next { s with seen := s.seen ++ [.present v] }) ∧
    (s.present = none → hostAct .readPresent s = .fault (.noValue .present)) ∧
    (∀ i, hostAct (.readIn i) s = .refused .hostAccessNever) ∧ hostAct .readCmd s = .refused .hostAccessNever ∧
    (∀ v, hostAct (.writeStatus v) s = .refused .hostAccessNever) ∧
    ∀ i b, hostAct (.writeOut i b) s = .refused .hostAccessNever

/-- O40. STATUS shows PHASE and ERRCODE, and reading it has no side effect (derived from R29, R36, R37; rests on log entry
4). -/
def Obligations.StatusView : Prop :=
  ∀ s : State,
    s.status.extractLsb' 0 4 = s.phase ∧ s.status.extractLsb' 4 2 = s.errcode ∧
    (s.isBusy = true ↔ 1 ≤ s.phase.toNat ∧ s.phase.toNat ≤ 10) ∧ (s.isDone = true ↔ s.phase = 14#4) ∧
    (s.isErr = true ↔ s.phase = 15#4) ∧
    hostAct .readStatus s = .next { s with seen := s.seen ++ [.status s.status] }

/-- O41. A host read of OUT returns its byte in DONE and is a fault in every other phase (derived from R40, R45, R321;
rests on log entry 4). -/
def Obligations.OutReadOnlyWhenDone : Prop :=
  ∀ (s : State) (i : Nat),
    (∀ b, s.phase = 14#4 → Memory.read s.out i = some b →
      hostAct (.readOut i) s = .next { s with seen := s.seen ++ [.out i b] }) ∧
    (s.phase ≠ 14#4 → ∃ f, hostAct (.readOut i) s = .fault f)

/-- O42. Hardware reset from any state, and the state after reset: PHASE and ERRCODE 0, nothing else holds a value (R43). -/
def Obligations.HardwareReset : Prop :=
  (∀ s : State, ∃ t, hostAct .reset s = .next t ∧ HoldsNothing t) ∧ HoldsNothing State.reset

/-- O43. PACKB, BSWAP, PADBIT, PADLEN change only the words they address and pc (derived from R61, R63, R101, R102, R121,
R123). -/
def Obligations.FrameOfWordStores : Prop :=
  ∀ s t : State,
    (exec .packb s = .next t ∨ exec .bswap s = .next t ∨ exec .padbit s = .next t ∨ exec .padlen s = .next t →
      t.wr = s.wr ∧ t.st = s.st ∧ t.q = s.q ∧ SameLengths s t ∧ SamePorts s t ∧ SameIn s t ∧ SameOutOutside [] s t ∧
        t.t = s.t) ∧
    (exec .packb s = .next t → t.j = s.j ∧ ∀ i, s.idx = some i → SameWOutside [codecWord i] s t) ∧
    (exec .bswap s = .next t → t.j = s.j ∧ ∀ i, s.idx = some i → SameWOutside [i] s t) ∧
    (exec .padbit s = .next t → t.idx = s.idx ∧ t.j = s.j ∧ ∀ L, s.len = some L → SameWOutside [padWord L] s t) ∧
    (exec .padlen s = .next t → t.idx = s.idx ∧ ∀ nw, s.nw = some nw → SameWOutside [nw - 2, nw - 1] s t)

/-- O44. LOADW, STEPt, FOLD, FSWAP store nothing and change only their registers and pc (derived from R23, R25, R26, R61,
R150). -/
def Obligations.FrameOfRegisterOps : Prop :=
  ∀ (s t : State) (k : BitVec 6),
    (exec .loadw s = .next t ∨ exec (stepInstr k) s = .next t ∨ exec .fold s = .next t ∨ exec .fswap s = .next t →
      SameMemories s t ∧ SameLengths s t ∧ SamePorts s t) ∧
    (exec .loadw s = .next t ∨ exec (stepInstr k) s = .next t →
      t.st = s.st ∧ t.q = s.q ∧ t.idx = s.idx ∧ t.j = s.j) ∧
    (exec .fold s = .next t → t.wr = s.wr ∧ t.q = s.q ∧ t.t = s.t) ∧
    (exec .fswap s = .next t → t.wr = s.wr ∧ t.st = s.st ∧ t.j = s.j ∧ t.t = s.t ∧
      ∀ i, s.idx = some i → ∀ k < 4, k ≠ i → t.q.get? k = s.q.get? k)

/-- O45. INIT and UNPKB change only what their rules write (derived from R40, R61, R103, R241). -/
def Obligations.FrameOfInitAndUnpkb : Prop :=
  ∀ s t : State,
    (exec .unpkb s = .next t →
      t.wr = s.wr ∧ t.st = s.st ∧ t.q = s.q ∧ t.j = s.j ∧ t.t = s.t ∧ SameLengths s t ∧ SamePorts s t ∧ SameIn s t ∧
        SameWOutside [] s t ∧ ∀ i, s.idx = some i → SameOutOutside [i] s t) ∧
    (exec .init s = .next t →
      t.wr = s.wr ∧ t.q = s.q ∧ SamePorts s t ∧ SameIn s t ∧
        ∀ n, s.n = some n → SameWOutside (List.range (paddedWords n)) s t)

/-- O46. START changes at most PHASE, ERRCODE, idx, j, t, and NOP nothing (derived from R86, R240, R285). -/
def Obligations.FrameOfCommands : Prop :=
  ∀ s t : State,
    (exec .start s = .next t →
      t = { s with phase := t.phase, errcode := t.errcode, idx := t.idx, j := t.j, t := t.t } ∧
        SameMemories s t ∧ (s.present = some false → t.idx = s.idx ∧ t.j = s.j ∧ t.t = s.t)) ∧
    (exec .nop s = .next t → t = s)

/-- O47. Which instructions may write each register and each space (derived from R20, R23, R25, R26, R27, R33, R34, R37,
R38, R39, R40). -/
def Obligations.WritersOfState : Prop :=
  ∀ (i : Instr) (s t : State), exec i s = .next t →
    (t.wr ≠ s.wr → i = .loadw ∨ ∃ k, i = stepInstr k) ∧ (t.st ≠ s.st → i = .init ∨ i = .fold) ∧
    (t.q ≠ s.q → i = .fswap) ∧
    (t.len ≠ s.len ∨ t.nwm ≠ s.nwm ∨ t.nw ≠ s.nw ∨ t.nb ≠ s.nb → i = .init) ∧
    (t.w ≠ s.w → i ∈ [.init, .packb, .bswap, .padbit, .padlen]) ∧ (t.out ≠ s.out → i = .init ∨ i = .unpkb) ∧
    (t.errcode ≠ s.errcode → i = .start) ∧ t.inp = s.inp ∧ t.n = s.n ∧ t.present = s.present

/-- O48. An instruction that reads a place holding no value faults; where the model stops beyond the reach of a run
(derived from R7, R11, R21, R29, R34, R45, R61, R63; rests on log entries 8 and 11 and 18). -/
def Obligations.ReadsThatStop : Prop :=
  ∀ s : State,
    (s.n = none → ∃ f, exec .init s = .fault f) ∧
    ((s.idx = none ∨ s.n = none ∨ ∃ i, s.idx = some i ∧
      (Memory.read s.inp i = none ∨ Memory.read s.w (8 * i / 32) = none)) → ∃ f, exec .packb s = .fault f) ∧
    ((s.idx = none ∨ s.nwm = none ∨ ∃ i, s.idx = some i ∧ Memory.read s.w i = none) → ∃ f, exec .bswap s = .fault f) ∧
    ((s.len = none ∨ ∃ L, s.len = some L ∧ Memory.read s.w (L.toNat / 32) = none) → ∃ f, exec .padbit s = .fault f) ∧
    ((s.len = none ∨ s.nw = none) → ∃ f, exec .padlen s = .fault f) ∧
    ((∃ r < 4, s.st.get? r = some none) → ∃ f, exec .loadw s = .fault f) ∧
    (∀ k : BitVec 6, ((∃ r < 4, s.wr.get? r = some none) ∨ s.j = none ∨
      ∃ j, s.j = some j ∧ Memory.read s.w (16 * j + wordIndex k.toNat) = none) → ∃ f, exec (stepInstr k) s = .fault f) ∧
    (((∃ r < 4, s.st.get? r = some none ∨ s.wr.get? r = some none) ∨ s.j = none ∨ s.nb = none) →
      ∃ f, exec .fold s = .fault f) ∧
    ((s.idx = none ∨ ∃ i, s.idx = some i ∧ s.st.get? i = some none) → ∃ f, exec .fswap s = .fault f) ∧
    ((s.idx = none ∨ ∃ i, s.idx = some i ∧ s.q.get? (8 * i / 32) = some none) → ∃ f, exec .unpkb s = .fault f) ∧
    (s.phase = 0#4 ∨ s.phase = 14#4 ∨ s.phase = 15#4 → s.present = none →
      exec .start s = .fault (.noValue .present)) ∧
    (∀ n, s.n = some n → Config.maxBytes < n → exec .init s = .refused .messageTooLong) ∧
    (∀ L nw, s.len = some L → s.nw = some nw → nw < 2 → ∃ f, exec .padlen s = .fault f) ∧
    (∀ i, s.idx = some i → 3 < i → ∃ f, exec .fswap s = .fault f) ∧
    (∀ i, s.idx = some i → 15 < i → ∃ f, exec .unpkb s = .fault f) ∧
    (s.phase = 11#4 ∨ s.phase = 12#4 ∨ s.phase = 13#4 → exec .start s = .refused .startNotQuiescent)

/-- O49. The state after reset is a legal state (derived from R21, R43). -/
def Obligations.ResetIsLegal : Prop :=
  LegalState State.reset

/-- O50. Every step keeps the state legal: canonical memories, legal PHASE and ERRCODE, counters in range (derived from
R29, R30, R37, R39, R40, R260). -/
def Obligations.StepKeepsLegal : Prop :=
  ∀ s t : State, LegalState s → step s = .next t → LegalState t

/-- O51. In a legal state a busy engine always completes its micro-operation, and is never refused (derived from R30, R87,
R101, R261, R280). -/
def Obligations.BusyEngineCompletes : Prop :=
  (∀ (s : State) (n : Nat), LegalState s → 1 ≤ s.phase.toNat → s.phase.toNat ≤ 10 → s.n = some n → messageLoaded s n →
    ∃ t, engineStep s = .next t) ∧
  ∀ (s : State) (r : Refusal), LegalState s → engineStep s ≠ .refused r

/-- O52. What W holds after PACK and after SWAP, for every message (R51, R104). -/
def Obligations.PackedAndSwappedWords : Prop :=
  ∀ (s : State) (b : List Byte), Started s b →
    (bytesToWords b).length = (b.length + 3) / 4 ∧
    (∀ w < (b.length + 3) / 4, (bytesToWords b)[w]? = some
      ((byteOr0 b (4 * w)).setWidth 32 <<< 24 ||| (byteOr0 b (4 * w + 1)).setWidth 32 <<< 16 |||
        (byteOr0 b (4 * w + 2)).setWidth 32 <<< 8 ||| (byteOr0 b (4 * w + 3)).setWidth 32)) ∧
    (∃ t : State, Host.Core.run core (1 + b.length) s = .next t ∧
      ∀ w < (b.length + 3) / 4, Memory.read t.w w = (bytesToWords b)[w]?) ∧
    ∃ t : State, Host.Core.run core (1 + b.length + (b.length + 3) / 4) s = .next t ∧
      ∀ w < (b.length + 3) / 4, Memory.read t.w w = some
        ((byteOr0 b (4 * w)).setWidth 32 ||| (byteOr0 b (4 * w + 1)).setWidth 32 <<< 8 |||
          (byteOr0 b (4 * w + 2)).setWidth 32 <<< 16 ||| (byteOr0 b (4 * w + 3)).setWidth 32 <<< 24)

/-- O53. After PADLEN the padded message is the message, 0x80, zeros, and its length (R124). -/
def Obligations.PaddedByteStream : Prop :=
  ∀ (s : State) (b : List Byte), Started s b →
    32 * paddedWords b.length = 512 * paddedBlocks b.length ∧
    ∃ t : State, Host.Core.run core (1 + b.length + (b.length + 3) / 4 + 2) s = .next t ∧ t.phase = 6#4 ∧
      ∀ k < 64 * paddedBlocks b.length, ∃ x, Memory.read t.w (k / 4) = some x ∧
        byteLane x (k % 4) =
          if k < b.length then byteOr0 b k else if k = b.length then 0x80#8
          else if k < 64 * paddedBlocks b.length - 8 then 0#8
          else BitVec.ofNat 8 (8 * b.length / 2 ^ (8 * (k - (64 * paddedBlocks b.length - 8))))

/-- O54. COMPRESS j: 66 steps from P_LOAD fold one block into the State and touch no word of W (derived from R92, R150,
R243, R244, R255, R256, R257). -/
def Obligations.BlockCompression : Prop :=
  ∀ (s : State) (st : Quad Word) (M : Nat → Word) (k nb : Nat), s.phase = 6#4 → s.j = some k → s.nb = some nb →
    s.st = st.valued → (∀ i < 16, Memory.read s.w (16 * k + i) = some (M i)) → undisturbed s 66 →
    ∃ t : State, Host.Core.run core 66 s = .next t ∧ t.st = (compressBlock M st).valued ∧ t.w = s.w ∧
      if k + 1 < nb then t.phase = 6#4 ∧ t.j = some (k + 1) else t.phase = 9#4 ∧ t.idx = some 0

/-- O55. FINAL: four FSWAP and sixteen UNPKB write the State little-endian into OUT (R53). -/
def Obligations.DigestSerialisation : Prop :=
  ∀ (s : State) (st : Quad Word), s.phase = 9#4 → s.idx = some 0 → s.st = st.valued → undisturbed s 20 →
    ∃ t : State, Host.Core.run core 20 s = .next t ∧ t.phase = 14#4 ∧ t.st = s.st ∧
      ∀ i < 4, ∀ p < 4, ∃ x, st.get? i = some x ∧
        Memory.read t.out (4 * i + p) = some (BitVec.ofNat 8 (x.toNat / 2 ^ (8 * p)))

/-- O56. Every undisturbed run ends in DONE after exactly N + ceil4(N) + 66*NB + 23 micro-operations (R261). -/
def Obligations.RunEnds : Prop :=
  ∀ (s : State) (b : List Byte), Started s b →
    (∀ k < b.length + (b.length + 3) / 4 + 66 * ((8 * b.length + 64) / 512 + 1) + 23,
      ∃ t : State, Host.Core.run core k s = .next t ∧ 1 ≤ t.phase.toNat ∧ t.phase.toNat ≤ 10) ∧
    ∃ t : State, Host.Core.run core (b.length + (b.length + 3) / 4 + 66 * ((8 * b.length + 64) / 512 + 1) + 23) s =
      .next t ∧ t.phase = 14#4

/-- O57. An undisturbed run issues exactly the micro-operations of DIGEST, in order (derived from R92, R250, R251, R252,
R253, R254, R255, R256, R257, R258, R259). -/
def Obligations.RunIssuesTrace : Prop :=
  ∀ (s : State) (b : List Byte), Started s b →
    (runTrace b.length).length = b.length + (b.length + 3) / 4 + 66 * ((8 * b.length + 64) / 512 + 1) + 23 ∧
    ∀ (k : Nat) (i : Instr), (runTrace b.length)[k]? = some i →
      ∃ t : State, Host.Core.run core k s = .next t ∧ Issues t i

/-- O58. Refinement: every undisturbed run leaves digest_bytes of the message in OUT (R262). -/
def Obligations.RunComputesDigest : Prop :=
  ∀ (s : State) (b : List Byte), Started s b →
    ∃ t : State, Host.Core.run core (runLength b.length) s = .next t ∧ t.phase = 14#4 ∧
      t.outBytes = some (digestBytes b)

/-- O59. From any quiescent state, a host that writes a message and starts it finds its digest at DONE (derived from R262,
R311, R312; rests on log entry 4). -/
def Obligations.BootToDigest : Prop :=
  ∀ (s : State) (b : List Byte), s.phase = 0#4 ∨ s.phase = 14#4 ∨ s.phase = 15#4 → b.length ≤ Config.maxBytes →
    s.pending = bootActions b →
    ∃ t : State, Host.Core.run core (b.length + 3 + runLength b.length) s = .next t ∧ t.status = 0x0e#6 ∧
      t.outBytes = some (digestBytes b)

/-- O60. The hexadecimal rendering of OUT, and reading it back (R270). -/
def Obligations.HexRendering : Prop :=
  (∀ bytes : List Byte, (hexRender bytes).length = 2 * bytes.length ∧
    (∀ (i : Nat) (x : Byte), bytes[i]? = some x →
      (hexRender bytes)[2 * i]? = "0123456789abcdef".toList[(x >>> 4).toNat]? ∧
      (hexRender bytes)[2 * i + 1]? = "0123456789abcdef".toList[(x &&& 0xf#8).toNat]?) ∧
    hexRead (hexRender bytes) = some bytes)

end
end

