-- ==== Sys2Proof/Laws/Memory.lean ====
section
/-! SUPPORT. The laws of a memory: a read after a write, the canonical form and the bounds every operation keeps, and
what clearing the first cells does. -/

namespace Sys2Proof.Machine

variable {w : Nat}

@[simp] theorem Memory.read_nil (i : Nat) : Memory.read ([] : Memory w) i = none := rfl

theorem Memory.read_cons (k : Nat) (x : BitVec w) (m : Memory w) (i : Nat) :
    Memory.read ((k, x) :: m) i = if i = k then some x else Memory.read m i := rfl

/-- A read after a write. -/
theorem Memory.read_write (m : Memory w) (i k : Nat) (v : BitVec w) :
    Memory.read (Memory.write m i v) k = if k = i then some v else Memory.read m k := by
  induction m with
  | nil => rfl
  | cons c m ih =>
    obtain ⟨a, x⟩ := c
    simp only [Memory.write]
    split_ifs <;> simp only [Memory.read_cons, ih] <;> grind

@[simp] theorem Memory.read_write_same (m : Memory w) (i : Nat) (v : BitVec w) :
    Memory.read (Memory.write m i v) i = some v := by simp [Memory.read_write]

theorem Memory.read_write_other (m : Memory w) {i k : Nat} (h : k ≠ i) (v : BitVec w) :
    Memory.read (Memory.write m i v) k = Memory.read m k := by simp [Memory.read_write, h]

/-- A cell that held a value still holds one after any write. -/
theorem Memory.read_write_isSome (m : Memory w) (i k : Nat) (v : BitVec w) (h : ∃ x, Memory.read m k = some x) :
    ∃ x, Memory.read (Memory.write m i v) k = some x := by
  rw [Memory.read_write]
  split_ifs
  · exact ⟨v, rfl⟩
  · exact h

/-! ### The canonical form -/

theorem Memory.wfFrom_mono {lo lo' : Nat} (h : lo' ≤ lo) {m : Memory w} (hm : Memory.wfFrom lo m = true) :
    Memory.wfFrom lo' m = true := by
  cases m with
  | nil => rfl
  | cons c m => simp only [Memory.wfFrom, Bool.and_eq_true, decide_eq_true_eq] at hm ⊢; exact ⟨by omega, hm.2⟩

theorem Memory.wfFrom_write {lo : Nat} (m : Memory w) (i : Nat) (v : BitVec w) (hi : lo ≤ i)
    (hm : Memory.wfFrom lo m = true) : Memory.wfFrom lo (Memory.write m i v) = true := by
  induction m generalizing lo with
  | nil => simpa [Memory.write, Memory.wfFrom] using hi
  | cons c m ih =>
    obtain ⟨a, x⟩ := c
    simp only [Memory.wfFrom, Bool.and_eq_true, decide_eq_true_eq] at hm
    simp only [Memory.write]
    split_ifs with h1 h2
    · simpa [Memory.wfFrom, hm.2] using ⟨hi, h1⟩
    · subst h2; simpa [Memory.wfFrom, hm.2] using hi
    · simpa [Memory.wfFrom, hm.1] using ih (by omega) hm.2

/-- A write keeps the canonical form. -/
theorem Memory.wf_write (m : Memory w) (i : Nat) (v : BitVec w) (hm : Memory.wf m = true) :
    Memory.wf (Memory.write m i v) = true := Memory.wfFrom_write m i v (Nat.zero_le i) hm

theorem Memory.wfFrom_filter {lo : Nat} (m : Memory w) (p : Nat × BitVec w → Bool) (hm : Memory.wfFrom lo m = true) :
    Memory.wfFrom lo (m.filter p) = true := by
  induction m generalizing lo with
  | nil => rfl
  | cons c m ih =>
    obtain ⟨a, x⟩ := c
    simp only [Memory.wfFrom, Bool.and_eq_true, decide_eq_true_eq] at hm
    rw [List.filter_cons]
    split_ifs
    · simpa [Memory.wfFrom, hm.1] using ih hm.2
    · exact Memory.wfFrom_mono (by omega) (ih hm.2)

theorem Memory.wfFrom_filter_ge {lo k : Nat} (m : Memory w) (hm : Memory.wfFrom lo m = true) :
    Memory.wfFrom k (m.filter fun c => decide (k ≤ c.1)) = true := by
  induction m generalizing lo with
  | nil => rfl
  | cons c m ih =>
    obtain ⟨a, x⟩ := c
    simp only [Memory.wfFrom, Bool.and_eq_true, decide_eq_true_eq] at hm
    rw [List.filter_cons]
    split_ifs with h
    · simp only [decide_eq_true_eq] at h
      simpa [Memory.wfFrom, h] using Memory.wfFrom_filter m _ hm.2
    · exact ih hm.2

theorem Memory.wfFrom_zeros_append (lo k : Nat) (m : Memory w) (hm : Memory.wfFrom (lo + k) m = true) :
    Memory.wfFrom lo ((List.range' lo k).map (fun i => (i, 0#w)) ++ m) = true := by
  induction k generalizing lo with
  | zero => simpa using hm
  | succ k ih =>
    simp only [List.range'_succ, List.map_cons, List.cons_append, Memory.wfFrom, le_refl, decide_true, Bool.true_and]
    exact ih (lo + 1) (by rwa [show lo + 1 + k = lo + (k + 1) by omega])

/-- Clearing the first cells keeps the canonical form. -/
theorem Memory.wf_zeroBelow (m : Memory w) (k : Nat) (hm : Memory.wf m = true) :
    Memory.wf (Memory.zeroBelow m k) = true := by
  have := Memory.wfFrom_zeros_append 0 k _ (by simpa using Memory.wfFrom_filter_ge (k := k) m hm)
  simpa [Memory.wf, Memory.zeroBelow, List.range_eq_range'] using this

/-! ### The bounds -/

theorem Memory.within_iff (cap : Nat) (m : Memory w) :
    Memory.within cap m = true ↔ ∀ i, (∃ x, Memory.read m i = some x) → i < cap := by
  induction m with
  | nil => simp [Memory.within]
  | cons c m ih =>
    obtain ⟨a, x⟩ := c
    simp only [Memory.within, List.all_cons, Bool.and_eq_true, decide_eq_true_eq] at ih ⊢
    rw [ih]
    constructor
    · rintro ⟨h1, h2⟩ i ⟨y, hy⟩
      rw [Memory.read_cons] at hy
      split_ifs at hy with h
      · omega
      · exact h2 i ⟨y, hy⟩
    · intro h
      refine ⟨h a ⟨x, by simp [Memory.read_cons]⟩, fun i ⟨y, hy⟩ => h i ?_⟩
      rw [Memory.read_cons]
      split_ifs
      · exact ⟨x, rfl⟩
      · exact ⟨y, hy⟩

/-- A listed cell exists. -/
theorem Memory.lt_of_within {cap : Nat} {m : Memory w} (h : Memory.within cap m = true) {i : Nat} {x : BitVec w}
    (hx : Memory.read m i = some x) : i < cap := (Memory.within_iff cap m).1 h i ⟨x, hx⟩

/-- A write to a cell that exists keeps the bounds. -/
theorem Memory.within_write {cap : Nat} (m : Memory w) (i : Nat) (v : BitVec w) (hi : i < cap)
    (hm : Memory.within cap m = true) : Memory.within cap (Memory.write m i v) = true := by
  rw [Memory.within_iff] at hm ⊢
  rintro k ⟨x, hx⟩
  rw [Memory.read_write] at hx
  split_ifs at hx with h
  · omega
  · exact hm k ⟨x, hx⟩

/-! ### Clearing -/

theorem Memory.read_append (m m' : Memory w) (i : Nat) :
    Memory.read (m ++ m') i = (Memory.read m i).or (Memory.read m' i) := by
  induction m with
  | nil => rfl
  | cons c m ih =>
    obtain ⟨a, x⟩ := c
    rw [List.cons_append, Memory.read_cons, Memory.read_cons, ih]
    split_ifs <;> rfl

theorem Memory.read_zeros (k i : Nat) :
    Memory.read ((List.range k).map fun i => (i, 0#w)) i = if i < k then some 0#w else none := by
  induction k with
  | zero => rfl
  | succ k ih =>
    rw [List.range_succ, List.map_append, Memory.read_append, ih]
    simp only [List.map_cons, List.map_nil, Memory.read_cons, Memory.read_nil]
    split_ifs <;> first | rfl | omega

theorem Memory.read_filter_ge (m : Memory w) (k i : Nat) :
    Memory.read (m.filter fun c => decide (k ≤ c.1)) i = if k ≤ i then Memory.read m i else none := by
  induction m with
  | nil => simp
  | cons c m ih =>
    obtain ⟨a, x⟩ := c
    rw [List.filter_cons]
    split_ifs with h1 h2 h2 <;> simp only [decide_eq_true_eq] at h1 <;>
      simp only [Memory.read_cons, ih] <;> split_ifs <;> first | rfl | omega

/-- What clearing the cells below `k` leaves in each cell. -/
theorem Memory.read_zeroBelow (m : Memory w) (k i : Nat) :
    Memory.read (Memory.zeroBelow m k) i = if i < k then some 0#w else Memory.read m i := by
  rw [Memory.zeroBelow, Memory.read_append, Memory.read_zeros, Memory.read_filter_ge]
  split_ifs <;> first | rfl | omega

/-- Clearing cells that exist keeps the bounds. -/
theorem Memory.within_zeroBelow {cap : Nat} (m : Memory w) (k : Nat) (hk : k ≤ cap)
    (hm : Memory.within cap m = true) : Memory.within cap (Memory.zeroBelow m k) = true := by
  rw [Memory.within_iff] at hm ⊢
  rintro i ⟨x, hx⟩
  rw [Memory.read_zeroBelow] at hx
  split_ifs at hx
  · omega
  · exact hm i ⟨x, hx⟩

/-- The memories of the reset state are canonical. -/
theorem State.reset_memories_wf : Memory.wf State.reset.inp = true ∧ Memory.wf State.reset.w = true ∧
    Memory.wf State.reset.out = true := ⟨rfl, rfl, rfl⟩

end Sys2Proof.Machine
end

