-- ==== Sys2Proof/Laws/State.lean ====
section
/-! SUPPORT. One lemma per field per update of State, so that no proof unfolds a record update. -/

namespace Sys2Proof.Machine

/-! ### `setWr` -/

section
variable (s : State) (v : Quad (Option Word))

@[simp] theorem State.setWr_wr : (s.setWr v).wr = v := rfl
@[simp] theorem State.setWr_st : (s.setWr v).st = s.st := rfl
@[simp] theorem State.setWr_q : (s.setWr v).q = s.q := rfl
@[simp] theorem State.setWr_len : (s.setWr v).len = s.len := rfl
@[simp] theorem State.setWr_nwm : (s.setWr v).nwm = s.nwm := rfl
@[simp] theorem State.setWr_nw : (s.setWr v).nw = s.nw := rfl
@[simp] theorem State.setWr_nb : (s.setWr v).nb = s.nb := rfl
@[simp] theorem State.setWr_phase : (s.setWr v).phase = s.phase := rfl
@[simp] theorem State.setWr_idx : (s.setWr v).idx = s.idx := rfl
@[simp] theorem State.setWr_j : (s.setWr v).j = s.j := rfl
@[simp] theorem State.setWr_t : (s.setWr v).t = s.t := rfl
@[simp] theorem State.setWr_errcode : (s.setWr v).errcode = s.errcode := rfl
@[simp] theorem State.setWr_n : (s.setWr v).n = s.n := rfl
@[simp] theorem State.setWr_present : (s.setWr v).present = s.present := rfl
@[simp] theorem State.setWr_inp : (s.setWr v).inp = s.inp := rfl
@[simp] theorem State.setWr_w : (s.setWr v).w = s.w := rfl
@[simp] theorem State.setWr_out : (s.setWr v).out = s.out := rfl
@[simp] theorem State.setWr_pending : (s.setWr v).pending = s.pending := rfl
@[simp] theorem State.setWr_seen : (s.setWr v).seen = s.seen := rfl

end

/-! ### `setSt` -/

section
variable (s : State) (v : Quad (Option Word))

@[simp] theorem State.setSt_wr : (s.setSt v).wr = s.wr := rfl
@[simp] theorem State.setSt_st : (s.setSt v).st = v := rfl
@[simp] theorem State.setSt_q : (s.setSt v).q = s.q := rfl
@[simp] theorem State.setSt_len : (s.setSt v).len = s.len := rfl
@[simp] theorem State.setSt_nwm : (s.setSt v).nwm = s.nwm := rfl
@[simp] theorem State.setSt_nw : (s.setSt v).nw = s.nw := rfl
@[simp] theorem State.setSt_nb : (s.setSt v).nb = s.nb := rfl
@[simp] theorem State.setSt_phase : (s.setSt v).phase = s.phase := rfl
@[simp] theorem State.setSt_idx : (s.setSt v).idx = s.idx := rfl
@[simp] theorem State.setSt_j : (s.setSt v).j = s.j := rfl
@[simp] theorem State.setSt_t : (s.setSt v).t = s.t := rfl
@[simp] theorem State.setSt_errcode : (s.setSt v).errcode = s.errcode := rfl
@[simp] theorem State.setSt_n : (s.setSt v).n = s.n := rfl
@[simp] theorem State.setSt_present : (s.setSt v).present = s.present := rfl
@[simp] theorem State.setSt_inp : (s.setSt v).inp = s.inp := rfl
@[simp] theorem State.setSt_w : (s.setSt v).w = s.w := rfl
@[simp] theorem State.setSt_out : (s.setSt v).out = s.out := rfl
@[simp] theorem State.setSt_pending : (s.setSt v).pending = s.pending := rfl
@[simp] theorem State.setSt_seen : (s.setSt v).seen = s.seen := rfl

end

/-! ### `setQ` -/

section
variable (s : State) (v : Quad (Option Word))

@[simp] theorem State.setQ_wr : (s.setQ v).wr = s.wr := rfl
@[simp] theorem State.setQ_st : (s.setQ v).st = s.st := rfl
@[simp] theorem State.setQ_q : (s.setQ v).q = v := rfl
@[simp] theorem State.setQ_len : (s.setQ v).len = s.len := rfl
@[simp] theorem State.setQ_nwm : (s.setQ v).nwm = s.nwm := rfl
@[simp] theorem State.setQ_nw : (s.setQ v).nw = s.nw := rfl
@[simp] theorem State.setQ_nb : (s.setQ v).nb = s.nb := rfl
@[simp] theorem State.setQ_phase : (s.setQ v).phase = s.phase := rfl
@[simp] theorem State.setQ_idx : (s.setQ v).idx = s.idx := rfl
@[simp] theorem State.setQ_j : (s.setQ v).j = s.j := rfl
@[simp] theorem State.setQ_t : (s.setQ v).t = s.t := rfl
@[simp] theorem State.setQ_errcode : (s.setQ v).errcode = s.errcode := rfl
@[simp] theorem State.setQ_n : (s.setQ v).n = s.n := rfl
@[simp] theorem State.setQ_present : (s.setQ v).present = s.present := rfl
@[simp] theorem State.setQ_inp : (s.setQ v).inp = s.inp := rfl
@[simp] theorem State.setQ_w : (s.setQ v).w = s.w := rfl
@[simp] theorem State.setQ_out : (s.setQ v).out = s.out := rfl
@[simp] theorem State.setQ_pending : (s.setQ v).pending = s.pending := rfl
@[simp] theorem State.setQ_seen : (s.setQ v).seen = s.seen := rfl

end

/-! ### `setLen` -/

section
variable (s : State) (v : Option (BitVec 64))

@[simp] theorem State.setLen_wr : (s.setLen v).wr = s.wr := rfl
@[simp] theorem State.setLen_st : (s.setLen v).st = s.st := rfl
@[simp] theorem State.setLen_q : (s.setLen v).q = s.q := rfl
@[simp] theorem State.setLen_len : (s.setLen v).len = v := rfl
@[simp] theorem State.setLen_nwm : (s.setLen v).nwm = s.nwm := rfl
@[simp] theorem State.setLen_nw : (s.setLen v).nw = s.nw := rfl
@[simp] theorem State.setLen_nb : (s.setLen v).nb = s.nb := rfl
@[simp] theorem State.setLen_phase : (s.setLen v).phase = s.phase := rfl
@[simp] theorem State.setLen_idx : (s.setLen v).idx = s.idx := rfl
@[simp] theorem State.setLen_j : (s.setLen v).j = s.j := rfl
@[simp] theorem State.setLen_t : (s.setLen v).t = s.t := rfl
@[simp] theorem State.setLen_errcode : (s.setLen v).errcode = s.errcode := rfl
@[simp] theorem State.setLen_n : (s.setLen v).n = s.n := rfl
@[simp] theorem State.setLen_present : (s.setLen v).present = s.present := rfl
@[simp] theorem State.setLen_inp : (s.setLen v).inp = s.inp := rfl
@[simp] theorem State.setLen_w : (s.setLen v).w = s.w := rfl
@[simp] theorem State.setLen_out : (s.setLen v).out = s.out := rfl
@[simp] theorem State.setLen_pending : (s.setLen v).pending = s.pending := rfl
@[simp] theorem State.setLen_seen : (s.setLen v).seen = s.seen := rfl

end

/-! ### `setNwm` -/

section
variable (s : State) (v : Option Nat)

@[simp] theorem State.setNwm_wr : (s.setNwm v).wr = s.wr := rfl
@[simp] theorem State.setNwm_st : (s.setNwm v).st = s.st := rfl
@[simp] theorem State.setNwm_q : (s.setNwm v).q = s.q := rfl
@[simp] theorem State.setNwm_len : (s.setNwm v).len = s.len := rfl
@[simp] theorem State.setNwm_nwm : (s.setNwm v).nwm = v := rfl
@[simp] theorem State.setNwm_nw : (s.setNwm v).nw = s.nw := rfl
@[simp] theorem State.setNwm_nb : (s.setNwm v).nb = s.nb := rfl
@[simp] theorem State.setNwm_phase : (s.setNwm v).phase = s.phase := rfl
@[simp] theorem State.setNwm_idx : (s.setNwm v).idx = s.idx := rfl
@[simp] theorem State.setNwm_j : (s.setNwm v).j = s.j := rfl
@[simp] theorem State.setNwm_t : (s.setNwm v).t = s.t := rfl
@[simp] theorem State.setNwm_errcode : (s.setNwm v).errcode = s.errcode := rfl
@[simp] theorem State.setNwm_n : (s.setNwm v).n = s.n := rfl
@[simp] theorem State.setNwm_present : (s.setNwm v).present = s.present := rfl
@[simp] theorem State.setNwm_inp : (s.setNwm v).inp = s.inp := rfl
@[simp] theorem State.setNwm_w : (s.setNwm v).w = s.w := rfl
@[simp] theorem State.setNwm_out : (s.setNwm v).out = s.out := rfl
@[simp] theorem State.setNwm_pending : (s.setNwm v).pending = s.pending := rfl
@[simp] theorem State.setNwm_seen : (s.setNwm v).seen = s.seen := rfl

end

/-! ### `setNw` -/

section
variable (s : State) (v : Option Nat)

@[simp] theorem State.setNw_wr : (s.setNw v).wr = s.wr := rfl
@[simp] theorem State.setNw_st : (s.setNw v).st = s.st := rfl
@[simp] theorem State.setNw_q : (s.setNw v).q = s.q := rfl
@[simp] theorem State.setNw_len : (s.setNw v).len = s.len := rfl
@[simp] theorem State.setNw_nwm : (s.setNw v).nwm = s.nwm := rfl
@[simp] theorem State.setNw_nw : (s.setNw v).nw = v := rfl
@[simp] theorem State.setNw_nb : (s.setNw v).nb = s.nb := rfl
@[simp] theorem State.setNw_phase : (s.setNw v).phase = s.phase := rfl
@[simp] theorem State.setNw_idx : (s.setNw v).idx = s.idx := rfl
@[simp] theorem State.setNw_j : (s.setNw v).j = s.j := rfl
@[simp] theorem State.setNw_t : (s.setNw v).t = s.t := rfl
@[simp] theorem State.setNw_errcode : (s.setNw v).errcode = s.errcode := rfl
@[simp] theorem State.setNw_n : (s.setNw v).n = s.n := rfl
@[simp] theorem State.setNw_present : (s.setNw v).present = s.present := rfl
@[simp] theorem State.setNw_inp : (s.setNw v).inp = s.inp := rfl
@[simp] theorem State.setNw_w : (s.setNw v).w = s.w := rfl
@[simp] theorem State.setNw_out : (s.setNw v).out = s.out := rfl
@[simp] theorem State.setNw_pending : (s.setNw v).pending = s.pending := rfl
@[simp] theorem State.setNw_seen : (s.setNw v).seen = s.seen := rfl

end

/-! ### `setNb` -/

section
variable (s : State) (v : Option Nat)

@[simp] theorem State.setNb_wr : (s.setNb v).wr = s.wr := rfl
@[simp] theorem State.setNb_st : (s.setNb v).st = s.st := rfl
@[simp] theorem State.setNb_q : (s.setNb v).q = s.q := rfl
@[simp] theorem State.setNb_len : (s.setNb v).len = s.len := rfl
@[simp] theorem State.setNb_nwm : (s.setNb v).nwm = s.nwm := rfl
@[simp] theorem State.setNb_nw : (s.setNb v).nw = s.nw := rfl
@[simp] theorem State.setNb_nb : (s.setNb v).nb = v := rfl
@[simp] theorem State.setNb_phase : (s.setNb v).phase = s.phase := rfl
@[simp] theorem State.setNb_idx : (s.setNb v).idx = s.idx := rfl
@[simp] theorem State.setNb_j : (s.setNb v).j = s.j := rfl
@[simp] theorem State.setNb_t : (s.setNb v).t = s.t := rfl
@[simp] theorem State.setNb_errcode : (s.setNb v).errcode = s.errcode := rfl
@[simp] theorem State.setNb_n : (s.setNb v).n = s.n := rfl
@[simp] theorem State.setNb_present : (s.setNb v).present = s.present := rfl
@[simp] theorem State.setNb_inp : (s.setNb v).inp = s.inp := rfl
@[simp] theorem State.setNb_w : (s.setNb v).w = s.w := rfl
@[simp] theorem State.setNb_out : (s.setNb v).out = s.out := rfl
@[simp] theorem State.setNb_pending : (s.setNb v).pending = s.pending := rfl
@[simp] theorem State.setNb_seen : (s.setNb v).seen = s.seen := rfl

end

/-! ### `setPhase` -/

section
variable (s : State) (v : BitVec 4)

@[simp] theorem State.setPhase_wr : (s.setPhase v).wr = s.wr := rfl
@[simp] theorem State.setPhase_st : (s.setPhase v).st = s.st := rfl
@[simp] theorem State.setPhase_q : (s.setPhase v).q = s.q := rfl
@[simp] theorem State.setPhase_len : (s.setPhase v).len = s.len := rfl
@[simp] theorem State.setPhase_nwm : (s.setPhase v).nwm = s.nwm := rfl
@[simp] theorem State.setPhase_nw : (s.setPhase v).nw = s.nw := rfl
@[simp] theorem State.setPhase_nb : (s.setPhase v).nb = s.nb := rfl
@[simp] theorem State.setPhase_phase : (s.setPhase v).phase = v := rfl
@[simp] theorem State.setPhase_idx : (s.setPhase v).idx = s.idx := rfl
@[simp] theorem State.setPhase_j : (s.setPhase v).j = s.j := rfl
@[simp] theorem State.setPhase_t : (s.setPhase v).t = s.t := rfl
@[simp] theorem State.setPhase_errcode : (s.setPhase v).errcode = s.errcode := rfl
@[simp] theorem State.setPhase_n : (s.setPhase v).n = s.n := rfl
@[simp] theorem State.setPhase_present : (s.setPhase v).present = s.present := rfl
@[simp] theorem State.setPhase_inp : (s.setPhase v).inp = s.inp := rfl
@[simp] theorem State.setPhase_w : (s.setPhase v).w = s.w := rfl
@[simp] theorem State.setPhase_out : (s.setPhase v).out = s.out := rfl
@[simp] theorem State.setPhase_pending : (s.setPhase v).pending = s.pending := rfl
@[simp] theorem State.setPhase_seen : (s.setPhase v).seen = s.seen := rfl

end

/-! ### `setIdx` -/

section
variable (s : State) (v : Option Nat)

@[simp] theorem State.setIdx_wr : (s.setIdx v).wr = s.wr := rfl
@[simp] theorem State.setIdx_st : (s.setIdx v).st = s.st := rfl
@[simp] theorem State.setIdx_q : (s.setIdx v).q = s.q := rfl
@[simp] theorem State.setIdx_len : (s.setIdx v).len = s.len := rfl
@[simp] theorem State.setIdx_nwm : (s.setIdx v).nwm = s.nwm := rfl
@[simp] theorem State.setIdx_nw : (s.setIdx v).nw = s.nw := rfl
@[simp] theorem State.setIdx_nb : (s.setIdx v).nb = s.nb := rfl
@[simp] theorem State.setIdx_phase : (s.setIdx v).phase = s.phase := rfl
@[simp] theorem State.setIdx_idx : (s.setIdx v).idx = v := rfl
@[simp] theorem State.setIdx_j : (s.setIdx v).j = s.j := rfl
@[simp] theorem State.setIdx_t : (s.setIdx v).t = s.t := rfl
@[simp] theorem State.setIdx_errcode : (s.setIdx v).errcode = s.errcode := rfl
@[simp] theorem State.setIdx_n : (s.setIdx v).n = s.n := rfl
@[simp] theorem State.setIdx_present : (s.setIdx v).present = s.present := rfl
@[simp] theorem State.setIdx_inp : (s.setIdx v).inp = s.inp := rfl
@[simp] theorem State.setIdx_w : (s.setIdx v).w = s.w := rfl
@[simp] theorem State.setIdx_out : (s.setIdx v).out = s.out := rfl
@[simp] theorem State.setIdx_pending : (s.setIdx v).pending = s.pending := rfl
@[simp] theorem State.setIdx_seen : (s.setIdx v).seen = s.seen := rfl

end

/-! ### `setJ` -/

section
variable (s : State) (v : Option Nat)

@[simp] theorem State.setJ_wr : (s.setJ v).wr = s.wr := rfl
@[simp] theorem State.setJ_st : (s.setJ v).st = s.st := rfl
@[simp] theorem State.setJ_q : (s.setJ v).q = s.q := rfl
@[simp] theorem State.setJ_len : (s.setJ v).len = s.len := rfl
@[simp] theorem State.setJ_nwm : (s.setJ v).nwm = s.nwm := rfl
@[simp] theorem State.setJ_nw : (s.setJ v).nw = s.nw := rfl
@[simp] theorem State.setJ_nb : (s.setJ v).nb = s.nb := rfl
@[simp] theorem State.setJ_phase : (s.setJ v).phase = s.phase := rfl
@[simp] theorem State.setJ_idx : (s.setJ v).idx = s.idx := rfl
@[simp] theorem State.setJ_j : (s.setJ v).j = v := rfl
@[simp] theorem State.setJ_t : (s.setJ v).t = s.t := rfl
@[simp] theorem State.setJ_errcode : (s.setJ v).errcode = s.errcode := rfl
@[simp] theorem State.setJ_n : (s.setJ v).n = s.n := rfl
@[simp] theorem State.setJ_present : (s.setJ v).present = s.present := rfl
@[simp] theorem State.setJ_inp : (s.setJ v).inp = s.inp := rfl
@[simp] theorem State.setJ_w : (s.setJ v).w = s.w := rfl
@[simp] theorem State.setJ_out : (s.setJ v).out = s.out := rfl
@[simp] theorem State.setJ_pending : (s.setJ v).pending = s.pending := rfl
@[simp] theorem State.setJ_seen : (s.setJ v).seen = s.seen := rfl

end

/-! ### `setT` -/

section
variable (s : State) (v : Option (BitVec 6))

@[simp] theorem State.setT_wr : (s.setT v).wr = s.wr := rfl
@[simp] theorem State.setT_st : (s.setT v).st = s.st := rfl
@[simp] theorem State.setT_q : (s.setT v).q = s.q := rfl
@[simp] theorem State.setT_len : (s.setT v).len = s.len := rfl
@[simp] theorem State.setT_nwm : (s.setT v).nwm = s.nwm := rfl
@[simp] theorem State.setT_nw : (s.setT v).nw = s.nw := rfl
@[simp] theorem State.setT_nb : (s.setT v).nb = s.nb := rfl
@[simp] theorem State.setT_phase : (s.setT v).phase = s.phase := rfl
@[simp] theorem State.setT_idx : (s.setT v).idx = s.idx := rfl
@[simp] theorem State.setT_j : (s.setT v).j = s.j := rfl
@[simp] theorem State.setT_t : (s.setT v).t = v := rfl
@[simp] theorem State.setT_errcode : (s.setT v).errcode = s.errcode := rfl
@[simp] theorem State.setT_n : (s.setT v).n = s.n := rfl
@[simp] theorem State.setT_present : (s.setT v).present = s.present := rfl
@[simp] theorem State.setT_inp : (s.setT v).inp = s.inp := rfl
@[simp] theorem State.setT_w : (s.setT v).w = s.w := rfl
@[simp] theorem State.setT_out : (s.setT v).out = s.out := rfl
@[simp] theorem State.setT_pending : (s.setT v).pending = s.pending := rfl
@[simp] theorem State.setT_seen : (s.setT v).seen = s.seen := rfl

end

/-! ### `setErrcode` -/

section
variable (s : State) (v : BitVec 2)

@[simp] theorem State.setErrcode_wr : (s.setErrcode v).wr = s.wr := rfl
@[simp] theorem State.setErrcode_st : (s.setErrcode v).st = s.st := rfl
@[simp] theorem State.setErrcode_q : (s.setErrcode v).q = s.q := rfl
@[simp] theorem State.setErrcode_len : (s.setErrcode v).len = s.len := rfl
@[simp] theorem State.setErrcode_nwm : (s.setErrcode v).nwm = s.nwm := rfl
@[simp] theorem State.setErrcode_nw : (s.setErrcode v).nw = s.nw := rfl
@[simp] theorem State.setErrcode_nb : (s.setErrcode v).nb = s.nb := rfl
@[simp] theorem State.setErrcode_phase : (s.setErrcode v).phase = s.phase := rfl
@[simp] theorem State.setErrcode_idx : (s.setErrcode v).idx = s.idx := rfl
@[simp] theorem State.setErrcode_j : (s.setErrcode v).j = s.j := rfl
@[simp] theorem State.setErrcode_t : (s.setErrcode v).t = s.t := rfl
@[simp] theorem State.setErrcode_errcode : (s.setErrcode v).errcode = v := rfl
@[simp] theorem State.setErrcode_n : (s.setErrcode v).n = s.n := rfl
@[simp] theorem State.setErrcode_present : (s.setErrcode v).present = s.present := rfl
@[simp] theorem State.setErrcode_inp : (s.setErrcode v).inp = s.inp := rfl
@[simp] theorem State.setErrcode_w : (s.setErrcode v).w = s.w := rfl
@[simp] theorem State.setErrcode_out : (s.setErrcode v).out = s.out := rfl
@[simp] theorem State.setErrcode_pending : (s.setErrcode v).pending = s.pending := rfl
@[simp] theorem State.setErrcode_seen : (s.setErrcode v).seen = s.seen := rfl

end

/-! ### `setN` -/

section
variable (s : State) (v : Option Nat)

@[simp] theorem State.setN_wr : (s.setN v).wr = s.wr := rfl
@[simp] theorem State.setN_st : (s.setN v).st = s.st := rfl
@[simp] theorem State.setN_q : (s.setN v).q = s.q := rfl
@[simp] theorem State.setN_len : (s.setN v).len = s.len := rfl
@[simp] theorem State.setN_nwm : (s.setN v).nwm = s.nwm := rfl
@[simp] theorem State.setN_nw : (s.setN v).nw = s.nw := rfl
@[simp] theorem State.setN_nb : (s.setN v).nb = s.nb := rfl
@[simp] theorem State.setN_phase : (s.setN v).phase = s.phase := rfl
@[simp] theorem State.setN_idx : (s.setN v).idx = s.idx := rfl
@[simp] theorem State.setN_j : (s.setN v).j = s.j := rfl
@[simp] theorem State.setN_t : (s.setN v).t = s.t := rfl
@[simp] theorem State.setN_errcode : (s.setN v).errcode = s.errcode := rfl
@[simp] theorem State.setN_n : (s.setN v).n = v := rfl
@[simp] theorem State.setN_present : (s.setN v).present = s.present := rfl
@[simp] theorem State.setN_inp : (s.setN v).inp = s.inp := rfl
@[simp] theorem State.setN_w : (s.setN v).w = s.w := rfl
@[simp] theorem State.setN_out : (s.setN v).out = s.out := rfl
@[simp] theorem State.setN_pending : (s.setN v).pending = s.pending := rfl
@[simp] theorem State.setN_seen : (s.setN v).seen = s.seen := rfl

end

/-! ### `setPresent` -/

section
variable (s : State) (v : Option Bool)

@[simp] theorem State.setPresent_wr : (s.setPresent v).wr = s.wr := rfl
@[simp] theorem State.setPresent_st : (s.setPresent v).st = s.st := rfl
@[simp] theorem State.setPresent_q : (s.setPresent v).q = s.q := rfl
@[simp] theorem State.setPresent_len : (s.setPresent v).len = s.len := rfl
@[simp] theorem State.setPresent_nwm : (s.setPresent v).nwm = s.nwm := rfl
@[simp] theorem State.setPresent_nw : (s.setPresent v).nw = s.nw := rfl
@[simp] theorem State.setPresent_nb : (s.setPresent v).nb = s.nb := rfl
@[simp] theorem State.setPresent_phase : (s.setPresent v).phase = s.phase := rfl
@[simp] theorem State.setPresent_idx : (s.setPresent v).idx = s.idx := rfl
@[simp] theorem State.setPresent_j : (s.setPresent v).j = s.j := rfl
@[simp] theorem State.setPresent_t : (s.setPresent v).t = s.t := rfl
@[simp] theorem State.setPresent_errcode : (s.setPresent v).errcode = s.errcode := rfl
@[simp] theorem State.setPresent_n : (s.setPresent v).n = s.n := rfl
@[simp] theorem State.setPresent_present : (s.setPresent v).present = v := rfl
@[simp] theorem State.setPresent_inp : (s.setPresent v).inp = s.inp := rfl
@[simp] theorem State.setPresent_w : (s.setPresent v).w = s.w := rfl
@[simp] theorem State.setPresent_out : (s.setPresent v).out = s.out := rfl
@[simp] theorem State.setPresent_pending : (s.setPresent v).pending = s.pending := rfl
@[simp] theorem State.setPresent_seen : (s.setPresent v).seen = s.seen := rfl

end

/-! ### `setIn` -/

section
variable (s : State) (v : Memory 8)

@[simp] theorem State.setIn_wr : (s.setIn v).wr = s.wr := rfl
@[simp] theorem State.setIn_st : (s.setIn v).st = s.st := rfl
@[simp] theorem State.setIn_q : (s.setIn v).q = s.q := rfl
@[simp] theorem State.setIn_len : (s.setIn v).len = s.len := rfl
@[simp] theorem State.setIn_nwm : (s.setIn v).nwm = s.nwm := rfl
@[simp] theorem State.setIn_nw : (s.setIn v).nw = s.nw := rfl
@[simp] theorem State.setIn_nb : (s.setIn v).nb = s.nb := rfl
@[simp] theorem State.setIn_phase : (s.setIn v).phase = s.phase := rfl
@[simp] theorem State.setIn_idx : (s.setIn v).idx = s.idx := rfl
@[simp] theorem State.setIn_j : (s.setIn v).j = s.j := rfl
@[simp] theorem State.setIn_t : (s.setIn v).t = s.t := rfl
@[simp] theorem State.setIn_errcode : (s.setIn v).errcode = s.errcode := rfl
@[simp] theorem State.setIn_n : (s.setIn v).n = s.n := rfl
@[simp] theorem State.setIn_present : (s.setIn v).present = s.present := rfl
@[simp] theorem State.setIn_inp : (s.setIn v).inp = v := rfl
@[simp] theorem State.setIn_w : (s.setIn v).w = s.w := rfl
@[simp] theorem State.setIn_out : (s.setIn v).out = s.out := rfl
@[simp] theorem State.setIn_pending : (s.setIn v).pending = s.pending := rfl
@[simp] theorem State.setIn_seen : (s.setIn v).seen = s.seen := rfl

end

/-! ### `setW` -/

section
variable (s : State) (v : Memory 32)

@[simp] theorem State.setW_wr : (s.setW v).wr = s.wr := rfl
@[simp] theorem State.setW_st : (s.setW v).st = s.st := rfl
@[simp] theorem State.setW_q : (s.setW v).q = s.q := rfl
@[simp] theorem State.setW_len : (s.setW v).len = s.len := rfl
@[simp] theorem State.setW_nwm : (s.setW v).nwm = s.nwm := rfl
@[simp] theorem State.setW_nw : (s.setW v).nw = s.nw := rfl
@[simp] theorem State.setW_nb : (s.setW v).nb = s.nb := rfl
@[simp] theorem State.setW_phase : (s.setW v).phase = s.phase := rfl
@[simp] theorem State.setW_idx : (s.setW v).idx = s.idx := rfl
@[simp] theorem State.setW_j : (s.setW v).j = s.j := rfl
@[simp] theorem State.setW_t : (s.setW v).t = s.t := rfl
@[simp] theorem State.setW_errcode : (s.setW v).errcode = s.errcode := rfl
@[simp] theorem State.setW_n : (s.setW v).n = s.n := rfl
@[simp] theorem State.setW_present : (s.setW v).present = s.present := rfl
@[simp] theorem State.setW_inp : (s.setW v).inp = s.inp := rfl
@[simp] theorem State.setW_w : (s.setW v).w = v := rfl
@[simp] theorem State.setW_out : (s.setW v).out = s.out := rfl
@[simp] theorem State.setW_pending : (s.setW v).pending = s.pending := rfl
@[simp] theorem State.setW_seen : (s.setW v).seen = s.seen := rfl

end

/-! ### `setOut` -/

section
variable (s : State) (v : Memory 8)

@[simp] theorem State.setOut_wr : (s.setOut v).wr = s.wr := rfl
@[simp] theorem State.setOut_st : (s.setOut v).st = s.st := rfl
@[simp] theorem State.setOut_q : (s.setOut v).q = s.q := rfl
@[simp] theorem State.setOut_len : (s.setOut v).len = s.len := rfl
@[simp] theorem State.setOut_nwm : (s.setOut v).nwm = s.nwm := rfl
@[simp] theorem State.setOut_nw : (s.setOut v).nw = s.nw := rfl
@[simp] theorem State.setOut_nb : (s.setOut v).nb = s.nb := rfl
@[simp] theorem State.setOut_phase : (s.setOut v).phase = s.phase := rfl
@[simp] theorem State.setOut_idx : (s.setOut v).idx = s.idx := rfl
@[simp] theorem State.setOut_j : (s.setOut v).j = s.j := rfl
@[simp] theorem State.setOut_t : (s.setOut v).t = s.t := rfl
@[simp] theorem State.setOut_errcode : (s.setOut v).errcode = s.errcode := rfl
@[simp] theorem State.setOut_n : (s.setOut v).n = s.n := rfl
@[simp] theorem State.setOut_present : (s.setOut v).present = s.present := rfl
@[simp] theorem State.setOut_inp : (s.setOut v).inp = s.inp := rfl
@[simp] theorem State.setOut_w : (s.setOut v).w = s.w := rfl
@[simp] theorem State.setOut_out : (s.setOut v).out = v := rfl
@[simp] theorem State.setOut_pending : (s.setOut v).pending = s.pending := rfl
@[simp] theorem State.setOut_seen : (s.setOut v).seen = s.seen := rfl

end

/-! ### `setPending` -/

section
variable (s : State) (v : List HostEvent)

@[simp] theorem State.setPending_wr : (s.setPending v).wr = s.wr := rfl
@[simp] theorem State.setPending_st : (s.setPending v).st = s.st := rfl
@[simp] theorem State.setPending_q : (s.setPending v).q = s.q := rfl
@[simp] theorem State.setPending_len : (s.setPending v).len = s.len := rfl
@[simp] theorem State.setPending_nwm : (s.setPending v).nwm = s.nwm := rfl
@[simp] theorem State.setPending_nw : (s.setPending v).nw = s.nw := rfl
@[simp] theorem State.setPending_nb : (s.setPending v).nb = s.nb := rfl
@[simp] theorem State.setPending_phase : (s.setPending v).phase = s.phase := rfl
@[simp] theorem State.setPending_idx : (s.setPending v).idx = s.idx := rfl
@[simp] theorem State.setPending_j : (s.setPending v).j = s.j := rfl
@[simp] theorem State.setPending_t : (s.setPending v).t = s.t := rfl
@[simp] theorem State.setPending_errcode : (s.setPending v).errcode = s.errcode := rfl
@[simp] theorem State.setPending_n : (s.setPending v).n = s.n := rfl
@[simp] theorem State.setPending_present : (s.setPending v).present = s.present := rfl
@[simp] theorem State.setPending_inp : (s.setPending v).inp = s.inp := rfl
@[simp] theorem State.setPending_w : (s.setPending v).w = s.w := rfl
@[simp] theorem State.setPending_out : (s.setPending v).out = s.out := rfl
@[simp] theorem State.setPending_pending : (s.setPending v).pending = v := rfl
@[simp] theorem State.setPending_seen : (s.setPending v).seen = s.seen := rfl

end

/-! ### `setSeen` -/

section
variable (s : State) (v : List Seen)

@[simp] theorem State.setSeen_wr : (s.setSeen v).wr = s.wr := rfl
@[simp] theorem State.setSeen_st : (s.setSeen v).st = s.st := rfl
@[simp] theorem State.setSeen_q : (s.setSeen v).q = s.q := rfl
@[simp] theorem State.setSeen_len : (s.setSeen v).len = s.len := rfl
@[simp] theorem State.setSeen_nwm : (s.setSeen v).nwm = s.nwm := rfl
@[simp] theorem State.setSeen_nw : (s.setSeen v).nw = s.nw := rfl
@[simp] theorem State.setSeen_nb : (s.setSeen v).nb = s.nb := rfl
@[simp] theorem State.setSeen_phase : (s.setSeen v).phase = s.phase := rfl
@[simp] theorem State.setSeen_idx : (s.setSeen v).idx = s.idx := rfl
@[simp] theorem State.setSeen_j : (s.setSeen v).j = s.j := rfl
@[simp] theorem State.setSeen_t : (s.setSeen v).t = s.t := rfl
@[simp] theorem State.setSeen_errcode : (s.setSeen v).errcode = s.errcode := rfl
@[simp] theorem State.setSeen_n : (s.setSeen v).n = s.n := rfl
@[simp] theorem State.setSeen_present : (s.setSeen v).present = s.present := rfl
@[simp] theorem State.setSeen_inp : (s.setSeen v).inp = s.inp := rfl
@[simp] theorem State.setSeen_w : (s.setSeen v).w = s.w := rfl
@[simp] theorem State.setSeen_out : (s.setSeen v).out = s.out := rfl
@[simp] theorem State.setSeen_pending : (s.setSeen v).pending = s.pending := rfl
@[simp] theorem State.setSeen_seen : (s.setSeen v).seen = v := rfl

end

/-! ### `setPc`, `raiseInvalidArgument`, `hardwareReset` -/

section
variable (s : State) (phase : BitVec 4) (idx j : Nat) (t : BitVec 6)

@[simp] theorem State.setPc_wr : (s.setPc phase idx j t).wr = s.wr := rfl
@[simp] theorem State.setPc_st : (s.setPc phase idx j t).st = s.st := rfl
@[simp] theorem State.setPc_q : (s.setPc phase idx j t).q = s.q := rfl
@[simp] theorem State.setPc_len : (s.setPc phase idx j t).len = s.len := rfl
@[simp] theorem State.setPc_nwm : (s.setPc phase idx j t).nwm = s.nwm := rfl
@[simp] theorem State.setPc_nw : (s.setPc phase idx j t).nw = s.nw := rfl
@[simp] theorem State.setPc_nb : (s.setPc phase idx j t).nb = s.nb := rfl
@[simp] theorem State.setPc_phase : (s.setPc phase idx j t).phase = phase := rfl
@[simp] theorem State.setPc_idx : (s.setPc phase idx j t).idx = some idx := rfl
@[simp] theorem State.setPc_j : (s.setPc phase idx j t).j = some j := rfl
@[simp] theorem State.setPc_t : (s.setPc phase idx j t).t = some t := rfl
@[simp] theorem State.setPc_errcode : (s.setPc phase idx j t).errcode = s.errcode := rfl
@[simp] theorem State.setPc_n : (s.setPc phase idx j t).n = s.n := rfl
@[simp] theorem State.setPc_present : (s.setPc phase idx j t).present = s.present := rfl
@[simp] theorem State.setPc_inp : (s.setPc phase idx j t).inp = s.inp := rfl
@[simp] theorem State.setPc_w : (s.setPc phase idx j t).w = s.w := rfl
@[simp] theorem State.setPc_out : (s.setPc phase idx j t).out = s.out := rfl
@[simp] theorem State.setPc_pending : (s.setPc phase idx j t).pending = s.pending := rfl
@[simp] theorem State.setPc_seen : (s.setPc phase idx j t).seen = s.seen := rfl

@[simp] theorem raiseInvalidArgument_wr : (raiseInvalidArgument s).wr = s.wr := rfl
@[simp] theorem raiseInvalidArgument_st : (raiseInvalidArgument s).st = s.st := rfl
@[simp] theorem raiseInvalidArgument_q : (raiseInvalidArgument s).q = s.q := rfl
@[simp] theorem raiseInvalidArgument_len : (raiseInvalidArgument s).len = s.len := rfl
@[simp] theorem raiseInvalidArgument_nwm : (raiseInvalidArgument s).nwm = s.nwm := rfl
@[simp] theorem raiseInvalidArgument_nw : (raiseInvalidArgument s).nw = s.nw := rfl
@[simp] theorem raiseInvalidArgument_nb : (raiseInvalidArgument s).nb = s.nb := rfl
@[simp] theorem raiseInvalidArgument_phase : (raiseInvalidArgument s).phase = 15#4 := rfl
@[simp] theorem raiseInvalidArgument_idx : (raiseInvalidArgument s).idx = s.idx := rfl
@[simp] theorem raiseInvalidArgument_j : (raiseInvalidArgument s).j = s.j := rfl
@[simp] theorem raiseInvalidArgument_t : (raiseInvalidArgument s).t = s.t := rfl
@[simp] theorem raiseInvalidArgument_errcode : (raiseInvalidArgument s).errcode = 1#2 := rfl
@[simp] theorem raiseInvalidArgument_n : (raiseInvalidArgument s).n = s.n := rfl
@[simp] theorem raiseInvalidArgument_present : (raiseInvalidArgument s).present = s.present := rfl
@[simp] theorem raiseInvalidArgument_inp : (raiseInvalidArgument s).inp = s.inp := rfl
@[simp] theorem raiseInvalidArgument_w : (raiseInvalidArgument s).w = s.w := rfl
@[simp] theorem raiseInvalidArgument_out : (raiseInvalidArgument s).out = s.out := rfl
@[simp] theorem raiseInvalidArgument_pending : (raiseInvalidArgument s).pending = s.pending := rfl
@[simp] theorem raiseInvalidArgument_seen : (raiseInvalidArgument s).seen = s.seen := rfl

@[simp] theorem hardwareReset_wr : (hardwareReset s).wr = State.reset.wr := rfl
@[simp] theorem hardwareReset_st : (hardwareReset s).st = State.reset.st := rfl
@[simp] theorem hardwareReset_q : (hardwareReset s).q = State.reset.q := rfl
@[simp] theorem hardwareReset_len : (hardwareReset s).len = State.reset.len := rfl
@[simp] theorem hardwareReset_nwm : (hardwareReset s).nwm = State.reset.nwm := rfl
@[simp] theorem hardwareReset_nw : (hardwareReset s).nw = State.reset.nw := rfl
@[simp] theorem hardwareReset_nb : (hardwareReset s).nb = State.reset.nb := rfl
@[simp] theorem hardwareReset_phase : (hardwareReset s).phase = State.reset.phase := rfl
@[simp] theorem hardwareReset_idx : (hardwareReset s).idx = State.reset.idx := rfl
@[simp] theorem hardwareReset_j : (hardwareReset s).j = State.reset.j := rfl
@[simp] theorem hardwareReset_t : (hardwareReset s).t = State.reset.t := rfl
@[simp] theorem hardwareReset_errcode : (hardwareReset s).errcode = State.reset.errcode := rfl
@[simp] theorem hardwareReset_n : (hardwareReset s).n = State.reset.n := rfl
@[simp] theorem hardwareReset_present : (hardwareReset s).present = State.reset.present := rfl
@[simp] theorem hardwareReset_inp : (hardwareReset s).inp = State.reset.inp := rfl
@[simp] theorem hardwareReset_w : (hardwareReset s).w = State.reset.w := rfl
@[simp] theorem hardwareReset_out : (hardwareReset s).out = State.reset.out := rfl
@[simp] theorem hardwareReset_pending : (hardwareReset s).pending = s.pending := rfl
@[simp] theorem hardwareReset_seen : (hardwareReset s).seen = s.seen := rfl

end

end Sys2Proof.Machine
end

