-- ==== Sys2Proof/Laws/Ops.lean ====
section
/-! SUPPORT. For each shared operation, once, everything it can do: when it goes on, and that a next state comes from
its going on. -/

namespace Sys2Proof.Machine

/-! ### Reading a place that may hold no value -/

section
variable {α : Type}

@[simp] theorem need_some (a : α) (l : Location) (k : α → Result) : need (some a) l k = k a := rfl

@[simp] theorem need_none (l : Location) (k : α → Result) : need none l k = .fault (.noValue l) := rfl

theorem need_eq_next {o : Option α} {l : Location} {k : α → Result} {s' : State} :
    need o l k = .next s' ↔ ∃ a, o = some a ∧ k a = .next s' := by
  cases o <;> simp

end

@[simp] theorem Quad.valued_inj (r r' : Quad Word) : r.valued = r'.valued ↔ r = r' := by
  cases r; cases r'; simp [Quad.valued]

@[simp] theorem needQuad_valued (r : Quad Word) (l : Nat → Location) (k : Quad Word → Result) :
    needQuad r.valued l k = k r := rfl

theorem needQuad_eq_next {r : Quad (Option Word)} {l : Nat → Location} {k : Quad Word → Result} {s' : State} :
    needQuad r l k = .next s' ↔ ∃ v : Quad Word, r = v.valued ∧ k v = .next s' := by
  constructor
  · intro h
    simp only [needQuad, need_eq_next] at h
    obtain ⟨a, ha, b, hb, c, hc, d, hd, h⟩ := h
    exact ⟨⟨a, b, c, d⟩, by cases r; simp_all [Quad.valued], h⟩
  · rintro ⟨v, rfl, h⟩; exact h

theorem Quad.get?_isSome {α : Type} (r : Quad α) {i : Nat} : (∃ o, r.get? i = some o) ↔ i < 4 := by
  constructor
  · rintro ⟨o, h⟩
    unfold Quad.get? at h
    split at h <;> first | omega | cases h
  · intro h
    have : i = 0 ∨ i = 1 ∨ i = 2 ∨ i = 3 := by omega
    rcases this with rfl | rfl | rfl | rfl <;> exact ⟨_, rfl⟩

theorem Quad.get?_set {α : Type} (r : Quad α) (i k : Nat) (v : α) (hi : i < 4) :
    (r.set i v).get? k = if k = i then some v else r.get? k := by
  have : i = 0 ∨ i = 1 ∨ i = 2 ∨ i = 3 := by omega
  rcases this with rfl | rfl | rfl | rfl <;> match k with
    | 0 | 1 | 2 | 3 => rfl
    | k + 4 => simp [Quad.get?]

theorem Quad.get?_valued (r : Quad Word) (i : Nat) : r.valued.get? i = (r.get? i).map some := by
  unfold Quad.get? Quad.valued; split <;> rfl

theorem needReg_eq_next {r : Quad (Option Word)} {l : Nat → Location} {i : Nat} {k : Word → Result} {s' : State} :
    needReg r l i k = .next s' ↔ ∃ x, r.get? i = some (some x) ∧ k x = .next s' := by
  unfold needReg
  cases h : r.get? i with
  | none => simp
  | some o => simp [need_eq_next]

theorem needReg_of {r : Quad (Option Word)} {l : Nat → Location} {i : Nat} {k : Word → Result} {x : Word}
    (h : r.get? i = some (some x)) : needReg r l i k = k x := by simp [needReg, h]

/-! ### Cells -/

section
variable {w : Nat} {m : Memory w} {cap : Nat} {l : Nat → Location} {i : Nat} {s' : State}

theorem loadCell_of {v : BitVec w} {k : BitVec w → Result} (h : Memory.read m i = some v) :
    loadCell m cap l i k = k v := by simp [loadCell, h]

theorem loadCell_noValue {k : BitVec w → Result} (h : Memory.read m i = none) (hi : i < cap) :
    loadCell m cap l i k = .fault (.noValue (l i)) := by simp [loadCell, h, hi]

theorem loadCell_noSuchCell {k : BitVec w → Result} (h : Memory.read m i = none) (hi : cap ≤ i) :
    loadCell m cap l i k = .fault (.noSuchCell (l i)) := by simp [loadCell, h, hi]

theorem loadCell_eq_next {k : BitVec w → Result} :
    loadCell m cap l i k = .next s' ↔ ∃ v, Memory.read m i = some v ∧ k v = .next s' := by
  unfold loadCell
  cases h : Memory.read m i with
  | some v => simp
  | none => simp only [reduceCtorEq, false_and, exists_false, iff_false]; split_ifs <;> simp

theorem storeCell_of {v : BitVec w} {k : Memory w → Result} (h : (∃ x, Memory.read m i = some x) ∨ i < cap) :
    storeCell m cap l i v k = k (Memory.write m i v) := by
  rw [storeCell, if_pos (by simpa [Option.isSome_iff_exists] using h)]

theorem storeCell_eq_next {v : BitVec w} {k : Memory w → Result} :
    storeCell m cap l i v k = .next s' ↔
      ((∃ x, Memory.read m i = some x) ∨ i < cap) ∧ k (Memory.write m i v) = .next s' := by
  unfold storeCell
  simp only [Option.isSome_iff_exists]
  split_ifs with h <;> simp [h]

end

section
variable {s s' : State} {i : Nat}

theorem loadIn_of {b : Byte} {k : Byte → Result} (h : Memory.read s.inp i = some b) : loadIn s i k = k b := loadCell_of h

theorem loadIn_eq_next {k : Byte → Result} :
    loadIn s i k = .next s' ↔ ∃ b, Memory.read s.inp i = some b ∧ k b = .next s' := loadCell_eq_next

theorem loadW_of {x : Word} {k : Word → Result} (h : Memory.read s.w i = some x) : loadW s i k = k x := loadCell_of h

theorem loadW_eq_next {k : Word → Result} :
    loadW s i k = .next s' ↔ ∃ x, Memory.read s.w i = some x ∧ k x = .next s' := loadCell_eq_next

theorem loadOut_of {b : Byte} {k : Byte → Result} (h : Memory.read s.out i = some b) : loadOut s i k = k b := loadCell_of h

theorem loadOut_eq_next {k : Byte → Result} :
    loadOut s i k = .next s' ↔ ∃ b, Memory.read s.out i = some b ∧ k b = .next s' := loadCell_eq_next

theorem storeIn_of {v : Byte} {k : State → Result} (h : (∃ x, Memory.read s.inp i = some x) ∨ i < Config.maxBytes) :
    storeIn s i v k = k (s.setIn (Memory.write s.inp i v)) := storeCell_of h

theorem storeIn_eq_next {v : Byte} {k : State → Result} :
    storeIn s i v k = .next s' ↔ ((∃ x, Memory.read s.inp i = some x) ∨ i < Config.maxBytes) ∧
      k (s.setIn (Memory.write s.inp i v)) = .next s' := storeCell_eq_next

theorem storeW_of {v : Word} {k : State → Result} (h : (∃ x, Memory.read s.w i = some x) ∨ i < wcap) :
    storeW s i v k = k (s.setW (Memory.write s.w i v)) := storeCell_of h

theorem storeW_eq_next {v : Word} {k : State → Result} :
    storeW s i v k = .next s' ↔ ((∃ x, Memory.read s.w i = some x) ∨ i < wcap) ∧
      k (s.setW (Memory.write s.w i v)) = .next s' := storeCell_eq_next

theorem storeOut_of {v : Byte} {k : State → Result} (h : (∃ x, Memory.read s.out i = some x) ∨ i < outCells) :
    storeOut s i v k = k (s.setOut (Memory.write s.out i v)) := storeCell_of h

theorem storeOut_eq_next {v : Byte} {k : State → Result} :
    storeOut s i v k = .next s' ↔ ((∃ x, Memory.read s.out i = some x) ∨ i < outCells) ∧
      k (s.setOut (Memory.write s.out i v)) = .next s' := storeCell_eq_next

end

/-! ### Sizes and indices -/

theorem fits_iff (n : Nat) : fits n = true ↔ n ≤ Config.maxBytes := by
  simp only [fits, Bool.or_eq_true, beq_iff_eq, decide_eq_true_eq]
  constructor
  · rintro (rfl | h)
    · exact Nat.zero_le _
    · exact h
  · exact .inr

theorem maxBytes_le : Config.maxBytes ≤ 2 ^ 61 - 1 := Nat.min_le_right _ _

theorem paddedWords_eq (n : Nat) : paddedWords n = 16 * paddedBlocks n := by
  unfold paddedWords paddedBlocks; omega

theorem paddedWords_div (n : Nat) : paddedWords n / 16 = paddedBlocks n := by
  unfold paddedWords paddedBlocks; omega

theorem paddedWords_le_wcap {n : Nat} (h : n ≤ Config.maxBytes) : paddedWords n ≤ wcap := by
  unfold wcap paddedWords; omega

theorem ceil4_le_paddedWords (n : Nat) : ceil4 n ≤ paddedWords n := by
  unfold ceil4 paddedWords; omega

theorem bits_div_lt_paddedWords (n : Nat) : 8 * n / 32 + 3 ≤ paddedWords n := by
  unfold paddedWords; omega

theorem codecWord_eq (i : Nat) : codecWord i = i / 4 := by unfold codecWord; omega

theorem codecShift_eq (i : Nat) : codecShift i = 24 - 8 * (i % 4) := by unfold codecShift; omega

/-- `8*N` fits the 64-bit length register for every message the engine accepts (R126). -/
theorem len_toNat {n : Nat} (h : n ≤ Config.maxBytes) : (BitVec.ofNat 64 (8 * n)).toNat = 8 * n := by
  have := maxBytes_le
  rw [BitVec.toNat_ofNat]
  omega

/-! ### Classes of PHASE -/

theorem quiescent_iff (p : BitVec 4) : quiescent p = true ↔ p = 0#4 ∨ p = 14#4 ∨ p = 15#4 := by
  simp [quiescent, or_assoc]

theorem busy_iff (p : BitVec 4) : busy p = true ↔ p = 1#4 ∨ p = 2#4 ∨ p = 3#4 ∨ p = 4#4 ∨ p = 5#4 ∨ p = 6#4 ∨
    p = 7#4 ∨ p = 8#4 ∨ p = 9#4 ∨ p = 10#4 := by
  revert p; decide

/-! ### No read or store of a place is refused: it goes on or it faults -/

theorem need_ne_refused {α : Type} {o : Option α} {l : Location} {k : α → Result} {r : Refusal}
    (h : ∀ a, k a ≠ .refused r) : need o l k ≠ .refused r := by
  cases o with
  | none => simp
  | some a => exact h a

theorem needQuad_ne_refused {q : Quad (Option Word)} {l : Nat → Location} {k : Quad Word → Result} {r : Refusal}
    (h : ∀ v, k v ≠ .refused r) : needQuad q l k ≠ .refused r :=
  need_ne_refused fun _ => need_ne_refused fun _ => need_ne_refused fun _ => need_ne_refused fun _ => h _

theorem needReg_ne_refused {q : Quad (Option Word)} {l : Nat → Location} {i : Nat} {k : Word → Result} {r : Refusal}
    (h : ∀ v, k v ≠ .refused r) : needReg q l i k ≠ .refused r := by
  unfold needReg
  split
  · exact need_ne_refused h
  · simp

theorem loadCell_ne_refused {w : Nat} {m : Memory w} {cap : Nat} {l : Nat → Location} {i : Nat}
    {k : BitVec w → Result} {r : Refusal} (h : ∀ v, k v ≠ .refused r) : loadCell m cap l i k ≠ .refused r := by
  unfold loadCell
  split
  · exact h _
  · split_ifs <;> simp

theorem storeCell_ne_refused {w : Nat} {m : Memory w} {cap : Nat} {l : Nat → Location} {i : Nat} {v : BitVec w}
    {k : Memory w → Result} {r : Refusal} (h : ∀ m', k m' ≠ .refused r) : storeCell m cap l i v k ≠ .refused r := by
  unfold storeCell
  split_ifs
  · exact h _
  · simp

end Sys2Proof.Machine
end

