-- ==== Sys2Proof/Laws/Codec.lean ====
section
/-! SUPPORT. Words by their byte lanes: what a lane of each byte placement is, and what packing one more byte does to
the words of a message. -/

namespace Sys2Proof.Machine

theorem byteAt_zero (k : Nat) : byteAt 0#8 k = 0#32 := by simp [byteAt]

theorem getLsbD_byteAt (b : Byte) (k i : Nat) :
    (byteAt b k).getLsbD i = (decide (i < 32) && (decide (k ≤ i) && b.getLsbD (i - k))) := by
  simp only [byteAt, BitVec.getLsbD_shiftLeft, BitVec.getLsbD_setWidth]
  by_cases h : i < 32
  · have h3 : i - k < 32 := by omega
    by_cases h2 : i < k
    · simp [h, h2]
    · simp [h, h2, h3, Nat.le_of_not_lt h2]
  · simp [h]

theorem getLsbD_byteLane (x : Word) (p i : Nat) : (byteLane x p).getLsbD i = (decide (i < 8) && x.getLsbD (8*p+i)) := by
  simp [byteLane, BitVec.getLsbD_extractLsb']

theorem lane_of_bit {i : Nat} (h : i < 32) : ∃ p r, p < 4 ∧ r < 8 ∧ i = 8*p + r := ⟨i/8, i%8, by omega, by omega, by omega⟩

theorem byteLane_byteAt (b : Byte) (p q : Nat) (hp : p < 4) (hq : q < 4) : byteLane (byteAt b (8*q)) p = if p = q then b else 0#8 := by
  apply BitVec.eq_of_getLsbD_eq
  intro i hi
  rw [getLsbD_byteLane, getLsbD_byteAt]
  split_ifs with h
  · subst h; simp [hi]; omega
  · by_cases h2 : 8*q ≤ 8*p+i
    · have : 8 ≤ 8*p+i-8*q := by omega
      simp [BitVec.getLsbD_of_ge _ _ this]
    · simp; omega

theorem byteLane_or (x y : Word) (p : Nat) : byteLane (x ||| y) p = byteLane x p ||| byteLane y p := by
  apply BitVec.eq_of_getLsbD_eq
  intro i hi
  simp only [getLsbD_byteLane, BitVec.getLsbD_or]
  cases decide (i < 8) <;> simp

theorem eq_of_lanes {x y : Word} (h : ∀ p < 4, byteLane x p = byteLane y p) : x = y := by
  apply BitVec.eq_of_getLsbD_eq
  intro i hi
  obtain ⟨p, r, hp, hr, rfl⟩ := lane_of_bit hi
  have := congrArg (fun b => b.getLsbD r) (h p hp)
  simpa only [getLsbD_byteLane, hr, decide_true, Bool.true_and] using this

theorem byteLane_of_bytes (a b c d : Byte) (p : Nat) (hp : p < 4) :
    byteLane (byteAt a 24 ||| byteAt b 16 ||| byteAt c 8 ||| byteAt d 0) p =
      if p = 3 then a else if p = 2 then b else if p = 1 then c else d := by
  have h3 := byteLane_byteAt a p 3 hp (by omega)
  have h2 := byteLane_byteAt b p 2 hp (by omega)
  have h1 := byteLane_byteAt c p 1 hp (by omega)
  have h0 := byteLane_byteAt d p 0 hp (by omega)
  simp only [Nat.reduceMul] at h3 h2 h1 h0
  rw [byteLane_or, byteLane_or, byteLane_or, h3, h2, h1, h0]
  have : p = 0 ∨ p = 1 ∨ p = 2 ∨ p = 3 := by omega
  rcases this with rfl | rfl | rfl | rfl <;> simp

theorem byteLane_bswap32 (x : Word) (p : Nat) (hp : p < 4) : byteLane (bswap32 x) p = byteLane x (3 - p) := by
  rw [bswap32, byteLane_of_bytes _ _ _ _ _ hp]
  have : p = 0 ∨ p = 1 ∨ p = 2 ∨ p = 3 := by omega
  rcases this with rfl | rfl | rfl | rfl <;> rfl

theorem bswap32_bswap32 (x : Word) : bswap32 (bswap32 x) = x := by
  apply eq_of_lanes
  intro p hp
  rw [byteLane_bswap32 _ _ hp, byteLane_bswap32 _ _ (by omega)]
  congr 1; omega

theorem or4 (a b c d : Word) : a ||| b ||| c ||| d = d ||| c ||| b ||| a := by
  ac_rfl

theorem bswap32_bigWord (b : List Byte) (w : Nat) : bswap32 (bigWord b w) = littleWord b w := by
  apply eq_of_lanes
  intro p hp
  rw [byteLane_bswap32 _ _ hp, bigWord, byteLane_of_bytes _ _ _ _ _ (by omega), littleWord, or4, byteLane_of_bytes _ _ _ _ _ hp]
  have : p = 0 ∨ p = 1 ∨ p = 2 ∨ p = 3 := by omega
  rcases this with rfl | rfl | rfl | rfl <;> rfl

theorem byteLane_of_shift (x : Word) (p : Nat) : (x >>> (8*p)).setWidth 8 = byteLane x p := by
  apply BitVec.eq_of_getLsbD_eq
  intro i hi
  simp only [getLsbD_byteLane, hi, decide_true, Bool.true_and, BitVec.getLsbD_setWidth, BitVec.getLsbD_ushiftRight]

theorem byteOr0_take (b : List Byte) (i k : Nat) : byteOr0 (b.take i) k = if k < i then byteOr0 b k else 0#8 := by
  unfold byteOr0
  rw [List.getD_eq_getElem?_getD, List.getD_eq_getElem?_getD, List.getElem?_take]
  split_ifs <;> rfl

theorem byteLane_bigWord (b : List Byte) (w p : Nat) (hp : p < 4) : byteLane (bigWord b w) p = byteOr0 b (4*w + (3-p)) := by
  rw [bigWord, byteLane_of_bytes _ _ _ _ _ hp]
  have : p = 0 ∨ p = 1 ∨ p = 2 ∨ p = 3 := by omega
  rcases this with rfl | rfl | rfl | rfl <;> rfl

theorem bigWord_take_succ (b : List Byte) (i w : Nat) : bigWord (b.take (i+1)) w =
    if w = codecWord i then bigWord (b.take i) w ||| byteAt (byteOr0 b i) (codecShift i) else bigWord (b.take i) w := by
  rw [codecWord_eq, codecShift_eq]
  apply eq_of_lanes
  intro p hp
  rw [byteLane_bigWord _ _ _ hp, byteOr0_take]
  split_ifs with h1 h2 h2
  · rw [byteLane_or, byteLane_bigWord _ _ _ hp, byteOr0_take, show 24 - 8 * (i % 4) = 8 * (3 - i % 4) by omega,
      byteLane_byteAt _ _ _ hp (by omega)]
    split_ifs with h3 h4 h4
    · omega
    · simp
    · rw [show 4 * w + (3 - p) = i by omega]; simp
    · omega
  · rw [byteLane_bigWord _ _ _ hp, byteOr0_take, if_pos (by omega)]
  · rw [byteLane_or, byteLane_bigWord _ _ _ hp, byteOr0_take, show 24 - 8 * (i % 4) = 8 * (3 - i % 4) by omega,
      byteLane_byteAt _ _ _ hp (by omega), if_neg (by omega), if_neg (by omega)]; rfl
  · rw [byteLane_bigWord _ _ _ hp, byteOr0_take, if_neg (by omega)]

theorem bigWord_take_zero (b : List Byte) (w : Nat) : bigWord (b.take 0) w = 0#32 := by
  apply eq_of_lanes
  intro p hp
  rw [byteLane_bigWord _ _ _ hp, byteOr0_take, if_neg (by omega)]
  simp [byteLane]

end Sys2Proof.Machine
end

