-- ==== Sys2Proof/Laws/Sequencer.lean ====
section
/-! SUPPORT. A sequencing rule writes nothing but `pc`: every other field is as it was. -/

namespace Sys2Proof.Machine

/-! ### `afterInit` -/

@[simp] theorem afterInit_wr (s : State) (n : Nat) : (afterInit n s).wr = s.wr := rfl
@[simp] theorem afterInit_st (s : State) (n : Nat) : (afterInit n s).st = s.st := rfl
@[simp] theorem afterInit_q (s : State) (n : Nat) : (afterInit n s).q = s.q := rfl
@[simp] theorem afterInit_len (s : State) (n : Nat) : (afterInit n s).len = s.len := rfl
@[simp] theorem afterInit_nwm (s : State) (n : Nat) : (afterInit n s).nwm = s.nwm := rfl
@[simp] theorem afterInit_nw (s : State) (n : Nat) : (afterInit n s).nw = s.nw := rfl
@[simp] theorem afterInit_nb (s : State) (n : Nat) : (afterInit n s).nb = s.nb := rfl
@[simp] theorem afterInit_errcode (s : State) (n : Nat) : (afterInit n s).errcode = s.errcode := rfl
@[simp] theorem afterInit_n (s : State) (n : Nat) : (afterInit n s).n = s.n := rfl
@[simp] theorem afterInit_present (s : State) (n : Nat) : (afterInit n s).present = s.present := rfl
@[simp] theorem afterInit_inp (s : State) (n : Nat) : (afterInit n s).inp = s.inp := rfl
@[simp] theorem afterInit_w (s : State) (n : Nat) : (afterInit n s).w = s.w := rfl
@[simp] theorem afterInit_out (s : State) (n : Nat) : (afterInit n s).out = s.out := rfl
@[simp] theorem afterInit_pending (s : State) (n : Nat) : (afterInit n s).pending = s.pending := rfl
@[simp] theorem afterInit_seen (s : State) (n : Nat) : (afterInit n s).seen = s.seen := rfl

/-! ### `afterPackb` -/

@[simp] theorem afterPackb_wr (s : State) (n i : Nat) : (afterPackb n i s).wr = s.wr := by unfold afterPackb; split_ifs <;> rfl
@[simp] theorem afterPackb_st (s : State) (n i : Nat) : (afterPackb n i s).st = s.st := by unfold afterPackb; split_ifs <;> rfl
@[simp] theorem afterPackb_q (s : State) (n i : Nat) : (afterPackb n i s).q = s.q := by unfold afterPackb; split_ifs <;> rfl
@[simp] theorem afterPackb_len (s : State) (n i : Nat) : (afterPackb n i s).len = s.len := by unfold afterPackb; split_ifs <;> rfl
@[simp] theorem afterPackb_nwm (s : State) (n i : Nat) : (afterPackb n i s).nwm = s.nwm := by unfold afterPackb; split_ifs <;> rfl
@[simp] theorem afterPackb_nw (s : State) (n i : Nat) : (afterPackb n i s).nw = s.nw := by unfold afterPackb; split_ifs <;> rfl
@[simp] theorem afterPackb_nb (s : State) (n i : Nat) : (afterPackb n i s).nb = s.nb := by unfold afterPackb; split_ifs <;> rfl
@[simp] theorem afterPackb_errcode (s : State) (n i : Nat) : (afterPackb n i s).errcode = s.errcode := by unfold afterPackb; split_ifs <;> rfl
@[simp] theorem afterPackb_n (s : State) (n i : Nat) : (afterPackb n i s).n = s.n := by unfold afterPackb; split_ifs <;> rfl
@[simp] theorem afterPackb_present (s : State) (n i : Nat) : (afterPackb n i s).present = s.present := by unfold afterPackb; split_ifs <;> rfl
@[simp] theorem afterPackb_inp (s : State) (n i : Nat) : (afterPackb n i s).inp = s.inp := by unfold afterPackb; split_ifs <;> rfl
@[simp] theorem afterPackb_w (s : State) (n i : Nat) : (afterPackb n i s).w = s.w := by unfold afterPackb; split_ifs <;> rfl
@[simp] theorem afterPackb_out (s : State) (n i : Nat) : (afterPackb n i s).out = s.out := by unfold afterPackb; split_ifs <;> rfl
@[simp] theorem afterPackb_pending (s : State) (n i : Nat) : (afterPackb n i s).pending = s.pending := by unfold afterPackb; split_ifs <;> rfl
@[simp] theorem afterPackb_seen (s : State) (n i : Nat) : (afterPackb n i s).seen = s.seen := by unfold afterPackb; split_ifs <;> rfl

/-! ### `afterBswap` -/

@[simp] theorem afterBswap_wr (s : State) (n i : Nat) : (afterBswap n i s).wr = s.wr := by unfold afterBswap; split_ifs <;> rfl
@[simp] theorem afterBswap_st (s : State) (n i : Nat) : (afterBswap n i s).st = s.st := by unfold afterBswap; split_ifs <;> rfl
@[simp] theorem afterBswap_q (s : State) (n i : Nat) : (afterBswap n i s).q = s.q := by unfold afterBswap; split_ifs <;> rfl
@[simp] theorem afterBswap_len (s : State) (n i : Nat) : (afterBswap n i s).len = s.len := by unfold afterBswap; split_ifs <;> rfl
@[simp] theorem afterBswap_nwm (s : State) (n i : Nat) : (afterBswap n i s).nwm = s.nwm := by unfold afterBswap; split_ifs <;> rfl
@[simp] theorem afterBswap_nw (s : State) (n i : Nat) : (afterBswap n i s).nw = s.nw := by unfold afterBswap; split_ifs <;> rfl
@[simp] theorem afterBswap_nb (s : State) (n i : Nat) : (afterBswap n i s).nb = s.nb := by unfold afterBswap; split_ifs <;> rfl
@[simp] theorem afterBswap_errcode (s : State) (n i : Nat) : (afterBswap n i s).errcode = s.errcode := by unfold afterBswap; split_ifs <;> rfl
@[simp] theorem afterBswap_n (s : State) (n i : Nat) : (afterBswap n i s).n = s.n := by unfold afterBswap; split_ifs <;> rfl
@[simp] theorem afterBswap_present (s : State) (n i : Nat) : (afterBswap n i s).present = s.present := by unfold afterBswap; split_ifs <;> rfl
@[simp] theorem afterBswap_inp (s : State) (n i : Nat) : (afterBswap n i s).inp = s.inp := by unfold afterBswap; split_ifs <;> rfl
@[simp] theorem afterBswap_w (s : State) (n i : Nat) : (afterBswap n i s).w = s.w := by unfold afterBswap; split_ifs <;> rfl
@[simp] theorem afterBswap_out (s : State) (n i : Nat) : (afterBswap n i s).out = s.out := by unfold afterBswap; split_ifs <;> rfl
@[simp] theorem afterBswap_pending (s : State) (n i : Nat) : (afterBswap n i s).pending = s.pending := by unfold afterBswap; split_ifs <;> rfl
@[simp] theorem afterBswap_seen (s : State) (n i : Nat) : (afterBswap n i s).seen = s.seen := by unfold afterBswap; split_ifs <;> rfl

/-! ### `afterPadbit` -/

@[simp] theorem afterPadbit_wr (s : State) : (afterPadbit s).wr = s.wr := rfl
@[simp] theorem afterPadbit_st (s : State) : (afterPadbit s).st = s.st := rfl
@[simp] theorem afterPadbit_q (s : State) : (afterPadbit s).q = s.q := rfl
@[simp] theorem afterPadbit_len (s : State) : (afterPadbit s).len = s.len := rfl
@[simp] theorem afterPadbit_nwm (s : State) : (afterPadbit s).nwm = s.nwm := rfl
@[simp] theorem afterPadbit_nw (s : State) : (afterPadbit s).nw = s.nw := rfl
@[simp] theorem afterPadbit_nb (s : State) : (afterPadbit s).nb = s.nb := rfl
@[simp] theorem afterPadbit_errcode (s : State) : (afterPadbit s).errcode = s.errcode := rfl
@[simp] theorem afterPadbit_n (s : State) : (afterPadbit s).n = s.n := rfl
@[simp] theorem afterPadbit_present (s : State) : (afterPadbit s).present = s.present := rfl
@[simp] theorem afterPadbit_inp (s : State) : (afterPadbit s).inp = s.inp := rfl
@[simp] theorem afterPadbit_w (s : State) : (afterPadbit s).w = s.w := rfl
@[simp] theorem afterPadbit_out (s : State) : (afterPadbit s).out = s.out := rfl
@[simp] theorem afterPadbit_pending (s : State) : (afterPadbit s).pending = s.pending := rfl
@[simp] theorem afterPadbit_seen (s : State) : (afterPadbit s).seen = s.seen := rfl

/-! ### `afterPadlen` -/

@[simp] theorem afterPadlen_wr (s : State) : (afterPadlen s).wr = s.wr := rfl
@[simp] theorem afterPadlen_st (s : State) : (afterPadlen s).st = s.st := rfl
@[simp] theorem afterPadlen_q (s : State) : (afterPadlen s).q = s.q := rfl
@[simp] theorem afterPadlen_len (s : State) : (afterPadlen s).len = s.len := rfl
@[simp] theorem afterPadlen_nwm (s : State) : (afterPadlen s).nwm = s.nwm := rfl
@[simp] theorem afterPadlen_nw (s : State) : (afterPadlen s).nw = s.nw := rfl
@[simp] theorem afterPadlen_nb (s : State) : (afterPadlen s).nb = s.nb := rfl
@[simp] theorem afterPadlen_errcode (s : State) : (afterPadlen s).errcode = s.errcode := rfl
@[simp] theorem afterPadlen_n (s : State) : (afterPadlen s).n = s.n := rfl
@[simp] theorem afterPadlen_present (s : State) : (afterPadlen s).present = s.present := rfl
@[simp] theorem afterPadlen_inp (s : State) : (afterPadlen s).inp = s.inp := rfl
@[simp] theorem afterPadlen_w (s : State) : (afterPadlen s).w = s.w := rfl
@[simp] theorem afterPadlen_out (s : State) : (afterPadlen s).out = s.out := rfl
@[simp] theorem afterPadlen_pending (s : State) : (afterPadlen s).pending = s.pending := rfl
@[simp] theorem afterPadlen_seen (s : State) : (afterPadlen s).seen = s.seen := rfl

/-! ### `afterLoadw` -/

@[simp] theorem afterLoadw_wr (s : State) : (afterLoadw s).wr = s.wr := rfl
@[simp] theorem afterLoadw_st (s : State) : (afterLoadw s).st = s.st := rfl
@[simp] theorem afterLoadw_q (s : State) : (afterLoadw s).q = s.q := rfl
@[simp] theorem afterLoadw_len (s : State) : (afterLoadw s).len = s.len := rfl
@[simp] theorem afterLoadw_nwm (s : State) : (afterLoadw s).nwm = s.nwm := rfl
@[simp] theorem afterLoadw_nw (s : State) : (afterLoadw s).nw = s.nw := rfl
@[simp] theorem afterLoadw_nb (s : State) : (afterLoadw s).nb = s.nb := rfl
@[simp] theorem afterLoadw_errcode (s : State) : (afterLoadw s).errcode = s.errcode := rfl
@[simp] theorem afterLoadw_n (s : State) : (afterLoadw s).n = s.n := rfl
@[simp] theorem afterLoadw_present (s : State) : (afterLoadw s).present = s.present := rfl
@[simp] theorem afterLoadw_inp (s : State) : (afterLoadw s).inp = s.inp := rfl
@[simp] theorem afterLoadw_w (s : State) : (afterLoadw s).w = s.w := rfl
@[simp] theorem afterLoadw_out (s : State) : (afterLoadw s).out = s.out := rfl
@[simp] theorem afterLoadw_pending (s : State) : (afterLoadw s).pending = s.pending := rfl
@[simp] theorem afterLoadw_seen (s : State) : (afterLoadw s).seen = s.seen := rfl

/-! ### `afterStep` -/

@[simp] theorem afterStep_wr (s : State) (t : BitVec 6) : (afterStep t s).wr = s.wr := by unfold afterStep; split_ifs <;> rfl
@[simp] theorem afterStep_st (s : State) (t : BitVec 6) : (afterStep t s).st = s.st := by unfold afterStep; split_ifs <;> rfl
@[simp] theorem afterStep_q (s : State) (t : BitVec 6) : (afterStep t s).q = s.q := by unfold afterStep; split_ifs <;> rfl
@[simp] theorem afterStep_len (s : State) (t : BitVec 6) : (afterStep t s).len = s.len := by unfold afterStep; split_ifs <;> rfl
@[simp] theorem afterStep_nwm (s : State) (t : BitVec 6) : (afterStep t s).nwm = s.nwm := by unfold afterStep; split_ifs <;> rfl
@[simp] theorem afterStep_nw (s : State) (t : BitVec 6) : (afterStep t s).nw = s.nw := by unfold afterStep; split_ifs <;> rfl
@[simp] theorem afterStep_nb (s : State) (t : BitVec 6) : (afterStep t s).nb = s.nb := by unfold afterStep; split_ifs <;> rfl
@[simp] theorem afterStep_errcode (s : State) (t : BitVec 6) : (afterStep t s).errcode = s.errcode := by unfold afterStep; split_ifs <;> rfl
@[simp] theorem afterStep_n (s : State) (t : BitVec 6) : (afterStep t s).n = s.n := by unfold afterStep; split_ifs <;> rfl
@[simp] theorem afterStep_present (s : State) (t : BitVec 6) : (afterStep t s).present = s.present := by unfold afterStep; split_ifs <;> rfl
@[simp] theorem afterStep_inp (s : State) (t : BitVec 6) : (afterStep t s).inp = s.inp := by unfold afterStep; split_ifs <;> rfl
@[simp] theorem afterStep_w (s : State) (t : BitVec 6) : (afterStep t s).w = s.w := by unfold afterStep; split_ifs <;> rfl
@[simp] theorem afterStep_out (s : State) (t : BitVec 6) : (afterStep t s).out = s.out := by unfold afterStep; split_ifs <;> rfl
@[simp] theorem afterStep_pending (s : State) (t : BitVec 6) : (afterStep t s).pending = s.pending := by unfold afterStep; split_ifs <;> rfl
@[simp] theorem afterStep_seen (s : State) (t : BitVec 6) : (afterStep t s).seen = s.seen := by unfold afterStep; split_ifs <;> rfl

/-! ### `afterFold` -/

@[simp] theorem afterFold_wr (s : State) (n i : Nat) : (afterFold n i s).wr = s.wr := by unfold afterFold; split_ifs <;> rfl
@[simp] theorem afterFold_st (s : State) (n i : Nat) : (afterFold n i s).st = s.st := by unfold afterFold; split_ifs <;> rfl
@[simp] theorem afterFold_q (s : State) (n i : Nat) : (afterFold n i s).q = s.q := by unfold afterFold; split_ifs <;> rfl
@[simp] theorem afterFold_len (s : State) (n i : Nat) : (afterFold n i s).len = s.len := by unfold afterFold; split_ifs <;> rfl
@[simp] theorem afterFold_nwm (s : State) (n i : Nat) : (afterFold n i s).nwm = s.nwm := by unfold afterFold; split_ifs <;> rfl
@[simp] theorem afterFold_nw (s : State) (n i : Nat) : (afterFold n i s).nw = s.nw := by unfold afterFold; split_ifs <;> rfl
@[simp] theorem afterFold_nb (s : State) (n i : Nat) : (afterFold n i s).nb = s.nb := by unfold afterFold; split_ifs <;> rfl
@[simp] theorem afterFold_errcode (s : State) (n i : Nat) : (afterFold n i s).errcode = s.errcode := by unfold afterFold; split_ifs <;> rfl
@[simp] theorem afterFold_n (s : State) (n i : Nat) : (afterFold n i s).n = s.n := by unfold afterFold; split_ifs <;> rfl
@[simp] theorem afterFold_present (s : State) (n i : Nat) : (afterFold n i s).present = s.present := by unfold afterFold; split_ifs <;> rfl
@[simp] theorem afterFold_inp (s : State) (n i : Nat) : (afterFold n i s).inp = s.inp := by unfold afterFold; split_ifs <;> rfl
@[simp] theorem afterFold_w (s : State) (n i : Nat) : (afterFold n i s).w = s.w := by unfold afterFold; split_ifs <;> rfl
@[simp] theorem afterFold_out (s : State) (n i : Nat) : (afterFold n i s).out = s.out := by unfold afterFold; split_ifs <;> rfl
@[simp] theorem afterFold_pending (s : State) (n i : Nat) : (afterFold n i s).pending = s.pending := by unfold afterFold; split_ifs <;> rfl
@[simp] theorem afterFold_seen (s : State) (n i : Nat) : (afterFold n i s).seen = s.seen := by unfold afterFold; split_ifs <;> rfl

/-! ### `afterFswap` -/

@[simp] theorem afterFswap_wr (s : State) (i : Nat) : (afterFswap i s).wr = s.wr := by unfold afterFswap; split_ifs <;> rfl
@[simp] theorem afterFswap_st (s : State) (i : Nat) : (afterFswap i s).st = s.st := by unfold afterFswap; split_ifs <;> rfl
@[simp] theorem afterFswap_q (s : State) (i : Nat) : (afterFswap i s).q = s.q := by unfold afterFswap; split_ifs <;> rfl
@[simp] theorem afterFswap_len (s : State) (i : Nat) : (afterFswap i s).len = s.len := by unfold afterFswap; split_ifs <;> rfl
@[simp] theorem afterFswap_nwm (s : State) (i : Nat) : (afterFswap i s).nwm = s.nwm := by unfold afterFswap; split_ifs <;> rfl
@[simp] theorem afterFswap_nw (s : State) (i : Nat) : (afterFswap i s).nw = s.nw := by unfold afterFswap; split_ifs <;> rfl
@[simp] theorem afterFswap_nb (s : State) (i : Nat) : (afterFswap i s).nb = s.nb := by unfold afterFswap; split_ifs <;> rfl
@[simp] theorem afterFswap_errcode (s : State) (i : Nat) : (afterFswap i s).errcode = s.errcode := by unfold afterFswap; split_ifs <;> rfl
@[simp] theorem afterFswap_n (s : State) (i : Nat) : (afterFswap i s).n = s.n := by unfold afterFswap; split_ifs <;> rfl
@[simp] theorem afterFswap_present (s : State) (i : Nat) : (afterFswap i s).present = s.present := by unfold afterFswap; split_ifs <;> rfl
@[simp] theorem afterFswap_inp (s : State) (i : Nat) : (afterFswap i s).inp = s.inp := by unfold afterFswap; split_ifs <;> rfl
@[simp] theorem afterFswap_w (s : State) (i : Nat) : (afterFswap i s).w = s.w := by unfold afterFswap; split_ifs <;> rfl
@[simp] theorem afterFswap_out (s : State) (i : Nat) : (afterFswap i s).out = s.out := by unfold afterFswap; split_ifs <;> rfl
@[simp] theorem afterFswap_pending (s : State) (i : Nat) : (afterFswap i s).pending = s.pending := by unfold afterFswap; split_ifs <;> rfl
@[simp] theorem afterFswap_seen (s : State) (i : Nat) : (afterFswap i s).seen = s.seen := by unfold afterFswap; split_ifs <;> rfl

/-! ### `afterUnpkb` -/

@[simp] theorem afterUnpkb_wr (s : State) (i : Nat) : (afterUnpkb i s).wr = s.wr := by unfold afterUnpkb; split_ifs <;> rfl
@[simp] theorem afterUnpkb_st (s : State) (i : Nat) : (afterUnpkb i s).st = s.st := by unfold afterUnpkb; split_ifs <;> rfl
@[simp] theorem afterUnpkb_q (s : State) (i : Nat) : (afterUnpkb i s).q = s.q := by unfold afterUnpkb; split_ifs <;> rfl
@[simp] theorem afterUnpkb_len (s : State) (i : Nat) : (afterUnpkb i s).len = s.len := by unfold afterUnpkb; split_ifs <;> rfl
@[simp] theorem afterUnpkb_nwm (s : State) (i : Nat) : (afterUnpkb i s).nwm = s.nwm := by unfold afterUnpkb; split_ifs <;> rfl
@[simp] theorem afterUnpkb_nw (s : State) (i : Nat) : (afterUnpkb i s).nw = s.nw := by unfold afterUnpkb; split_ifs <;> rfl
@[simp] theorem afterUnpkb_nb (s : State) (i : Nat) : (afterUnpkb i s).nb = s.nb := by unfold afterUnpkb; split_ifs <;> rfl
@[simp] theorem afterUnpkb_errcode (s : State) (i : Nat) : (afterUnpkb i s).errcode = s.errcode := by unfold afterUnpkb; split_ifs <;> rfl
@[simp] theorem afterUnpkb_n (s : State) (i : Nat) : (afterUnpkb i s).n = s.n := by unfold afterUnpkb; split_ifs <;> rfl
@[simp] theorem afterUnpkb_present (s : State) (i : Nat) : (afterUnpkb i s).present = s.present := by unfold afterUnpkb; split_ifs <;> rfl
@[simp] theorem afterUnpkb_inp (s : State) (i : Nat) : (afterUnpkb i s).inp = s.inp := by unfold afterUnpkb; split_ifs <;> rfl
@[simp] theorem afterUnpkb_w (s : State) (i : Nat) : (afterUnpkb i s).w = s.w := by unfold afterUnpkb; split_ifs <;> rfl
@[simp] theorem afterUnpkb_out (s : State) (i : Nat) : (afterUnpkb i s).out = s.out := by unfold afterUnpkb; split_ifs <;> rfl
@[simp] theorem afterUnpkb_pending (s : State) (i : Nat) : (afterUnpkb i s).pending = s.pending := by unfold afterUnpkb; split_ifs <;> rfl
@[simp] theorem afterUnpkb_seen (s : State) (i : Nat) : (afterUnpkb i s).seen = s.seen := by unfold afterUnpkb; split_ifs <;> rfl

end Sys2Proof.Machine
end

