-- ==== Sys2Proof/Laws/Exec.lean ====
section
/-! SUPPORT. Inversion: for each meaning, once, exactly when it answers a next state and which; for a step, which agent
moved. Proofs cite these instead of unfolding a meaning. -/

namespace Sys2Proof.Machine

variable {s s' : State}

theorem execInit_eq_next : execInit s = .next s' ↔
    ∃ n, s.n = some n ∧ n ≤ Config.maxBytes ∧ afterInit n (initData n s) = s' := by
  simp only [execInit, need_eq_next]
  refine exists_congr fun n => and_congr_right fun _ => ?_
  rw [← fits_iff]
  split_ifs with h <;> simp [h]

theorem execPackb_eq_next : execPackb s = .next s' ↔
    ∃ i b x n, s.idx = some i ∧ Memory.read s.inp i = some b ∧ Memory.read s.w (codecWord i) = some x ∧ s.n = some n ∧
      afterPackb n i (s.setW (Memory.write s.w (codecWord i) (x ||| byteAt b (codecShift i)))) = s' := by
  simp only [execPackb, need_eq_next, loadIn_eq_next, loadW_eq_next, storeW_eq_next, Host.Outcome.next.injEq]
  constructor
  · rintro ⟨i, hi, b, hb, x, hx, n, hn, -, h⟩; exact ⟨i, b, x, n, hi, hb, hx, hn, h⟩
  · rintro ⟨i, b, x, n, hi, hb, hx, hn, h⟩; exact ⟨i, hi, b, hb, x, hx, n, hn, .inl ⟨x, hx⟩, h⟩

theorem execBswap_eq_next : execBswap s = .next s' ↔
    ∃ i x n, s.idx = some i ∧ Memory.read s.w i = some x ∧ s.nwm = some n ∧
      afterBswap n i (s.setW (Memory.write s.w i (bswap32 x))) = s' := by
  simp only [execBswap, need_eq_next, loadW_eq_next, storeW_eq_next, Host.Outcome.next.injEq]
  constructor
  · rintro ⟨i, hi, x, hx, n, hn, -, h⟩; exact ⟨i, x, n, hi, hx, hn, h⟩
  · rintro ⟨i, x, n, hi, hx, hn, h⟩; exact ⟨i, hi, x, hx, n, hn, .inl ⟨x, hx⟩, h⟩

theorem execPadbit_eq_next : execPadbit s = .next s' ↔
    ∃ l x, s.len = some l ∧ Memory.read s.w (padWord l) = some x ∧
      afterPadbit (s.setW (Memory.write s.w (padWord l) (x ||| padBit l))) = s' := by
  simp only [execPadbit, need_eq_next, loadW_eq_next, storeW_eq_next, Host.Outcome.next.injEq]
  constructor
  · rintro ⟨l, hl, x, hx, -, h⟩; exact ⟨l, x, hl, hx, h⟩
  · rintro ⟨l, x, hl, hx, h⟩; exact ⟨l, hl, x, hx, .inl ⟨x, hx⟩, h⟩

theorem execPadlen_eq_next : execPadlen s = .next s' ↔
    ∃ l n, s.len = some l ∧ s.nw = some n ∧ 2 ≤ n ∧
      ((∃ x, Memory.read s.w (n - 2) = some x) ∨ n - 2 < wcap) ∧
      ((∃ x, Memory.read s.w (n - 1) = some x) ∨ n - 1 < wcap) ∧
      afterPadlen (s.setW (Memory.write (Memory.write s.w (n - 2) (lenLow l)) (n - 1) (lenHigh l))) = s' := by
  simp only [execPadlen, need_eq_next]
  constructor
  · rintro ⟨l, hl, n, hn, h⟩
    split_ifs at h with h2
    simp only [storeW_eq_next, State.setW_w, Host.Outcome.next.injEq] at h
    obtain ⟨h3, h4, h5⟩ := h
    rw [Memory.read_write_other _ (by omega)] at h4
    exact ⟨l, n, hl, hn, by omega, h3, h4, h5⟩
  · rintro ⟨l, n, hl, hn, h2, h3, h4, h5⟩
    refine ⟨l, hl, n, hn, ?_⟩
    rw [if_neg (by omega)]
    simp only [storeW_eq_next, State.setW_w, Host.Outcome.next.injEq]
    refine ⟨h3, ?_, h5⟩
    rwa [Memory.read_write_other _ (by omega)]

theorem execLoadw_eq_next : execLoadw s = .next s' ↔
    ∃ v : Quad Word, s.st = v.valued ∧ afterLoadw (s.setWr v.valued) = s' := by
  simp only [execLoadw, needQuad_eq_next, Host.Outcome.next.injEq]

theorem execStepT_eq_next {t : BitVec 6} : execStepT t s = .next s' ↔
    ∃ (r : Quad Word) (j : Nat) (m : Word), s.wr = r.valued ∧ s.j = some j ∧
      Memory.read s.w (stepWord j t.toNat) = some m ∧ afterStep t (s.setWr (stepFn t.toNat m r).valued) = s' := by
  simp only [execStepT, needQuad_eq_next, need_eq_next, loadW_eq_next, Host.Outcome.next.injEq]
  constructor
  · rintro ⟨r, hr, j, hj, m, hm, h⟩; exact ⟨r, j, m, hr, hj, hm, h⟩
  · rintro ⟨r, j, m, hr, hj, hm, h⟩; exact ⟨r, hr, j, hj, m, hm, h⟩

theorem execFold_eq_next : execFold s = .next s' ↔
    ∃ (v r : Quad Word) (j n : Nat), s.st = v.valued ∧ s.wr = r.valued ∧ s.j = some j ∧ s.nb = some n ∧
      afterFold n j (s.setSt (foldFn v r).valued) = s' := by
  simp only [execFold, needQuad_eq_next, need_eq_next, Host.Outcome.next.injEq]
  constructor
  · rintro ⟨v, hv, r, hr, j, hj, n, hn, h⟩; exact ⟨v, r, j, n, hv, hr, hj, hn, h⟩
  · rintro ⟨v, r, j, n, hv, hr, hj, hn, h⟩; exact ⟨v, hv, r, hr, j, hj, n, hn, h⟩

theorem execFswap_eq_next : execFswap s = .next s' ↔
    ∃ i x, s.idx = some i ∧ s.st.get? i = some (some x) ∧
      afterFswap i (s.setQ (s.q.set i (some (bswap32 x)))) = s' := by
  simp only [execFswap, need_eq_next, needReg_eq_next, Host.Outcome.next.injEq]
  constructor
  · rintro ⟨i, hi, x, hx, h⟩; exact ⟨i, x, hi, hx, h⟩
  · rintro ⟨i, x, hi, hx, h⟩; exact ⟨i, hi, x, hx, h⟩

theorem execUnpkb_eq_next : execUnpkb s = .next s' ↔
    ∃ i x, s.idx = some i ∧ s.q.get? (codecWord i) = some (some x) ∧
      afterUnpkb i (s.setOut (Memory.write s.out i ((x >>> codecShift i).setWidth 8))) = s' := by
  simp only [execUnpkb, need_eq_next, needReg_eq_next, storeOut_eq_next, Host.Outcome.next.injEq]
  constructor
  · rintro ⟨i, hi, x, hx, -, h⟩; exact ⟨i, x, hi, hx, h⟩
  · rintro ⟨i, x, hi, hx, h⟩
    refine ⟨i, hi, x, hx, .inr ?_, h⟩
    have := (Quad.get?_isSome s.q).1 ⟨_, hx⟩
    rw [codecWord_eq] at this
    unfold outCells
    omega

theorem execStart_eq_next : execStart s = .next s' ↔ quiescent s.phase = true ∧
    ((s.present = some false ∧ raiseInvalidArgument s = s') ∨
      (s.present = some true ∧ ∃ n, s.n = some n ∧ n ≤ Config.maxBytes ∧
        (s.setErrcode 0#2).setPc Phase.init 0 0 0#6 = s')) := by
  unfold execStart
  split_ifs with hq
  · rw [need_eq_next]
    simp only [hq, true_and]
    constructor
    · rintro ⟨p, hp, h⟩
      cases p with
      | false => exact .inl ⟨hp, by simpa using h⟩
      | true =>
        refine .inr ⟨hp, ?_⟩
        simp only [if_true] at h
        cases hn : s.n with
        | none => simp [hn] at h
        | some n =>
          simp only [hn] at h
          split_ifs at h with hf
          exact ⟨n, rfl, (fits_iff n).1 hf, by simpa using h⟩
    · rintro (⟨hp, h⟩ | ⟨hp, n, hn, hf, h⟩)
      · exact ⟨false, hp, by simpa using h⟩
      · exact ⟨true, hp, by simpa [hn, (fits_iff n).2 hf] using h⟩
  · simp [hq]

/-- Every instruction is one of the eleven kinds: a step is STEPt for its number `t`. -/
theorem Instr.kinds (i : Instr) : (∃ t, i = stepInstr t) ∨ i = .init ∨ i = .packb ∨ i = .bswap ∨ i = .padbit ∨
    i = .padlen ∨ i = .loadw ∨ i = .fold ∨ i = .fswap ∨ i = .unpkb ∨ i = .start ∨ i = .nop := by
  cases i <;> first
    | exact .inl (by decide)
    | simp

/-- STEPt means the step rule at its number. -/
theorem exec_stepInstr (t : BitVec 6) : exec (stepInstr t) = execStepT t := by
  have h : ∀ k : Fin 64, exec (stepInstr (BitVec.ofFin k)) = execStepT (BitVec.ofFin k) := by
    intro k
    fin_cases k <;> rfl
  simpa using h t.toFin

/-! ### The engine's step -/

/-- The word of P_STEP is that of STEPt (R80, R82). -/
theorem decodeUop_step (t : BitVec 6) : decodeUop (7#4 ++ t) = .ok (stepInstr t) := by
  revert t; decide

/-- The PHASE register has sixteen values. -/
theorem phase_cases (p : BitVec 4) : quiescent p = true ∨ p = 1#4 ∨ p = 2#4 ∨ p = 3#4 ∨ p = 4#4 ∨ p = 5#4 ∨ p = 6#4 ∨
    p = 7#4 ∨ p = 8#4 ∨ p = 9#4 ∨ p = 10#4 ∨ p = 11#4 ∨ p = 12#4 ∨ p = 13#4 := by
  revert p; decide

/-- A quiescent engine has no step of its own (R260). -/
theorem engineStep_quiescent (h : quiescent s.phase = true) : engineStep s = .next s := by simp [engineStep, h]

/-- In a busy phase other than P_STEP the engine issues the format U micro-operation of that code (R29). -/
theorem engineStep_formatU {i : Instr} (hq : quiescent s.phase = false) (h7 : s.phase ≠ 7#4)
    (hd : decodeUop (s.phase ++ 0#6) = .ok i) : engineStep s = exec i s := by
  simp [engineStep, issueWord, hq, h7, hd]

/-- In P_STEP the engine issues STEPt (R29). -/
theorem engineStep_step {t : BitVec 6} (h7 : s.phase = 7#4) (ht : s.t = some t) :
    engineStep s = execStepT t s := by
  have hq : quiescent (7#4) = false := rfl
  simp [engineStep, issueWord, hq, h7, ht, decodeUop_step, exec_stepInstr]

theorem engineStep_init (h : s.phase = 1#4) : engineStep s = execInit s :=
  engineStep_formatU (i := .init) (by rw [h]; rfl) (by rw [h]; decide) (by rw [h]; rfl)

theorem engineStep_packb (h : s.phase = 2#4) : engineStep s = execPackb s :=
  engineStep_formatU (i := .packb) (by rw [h]; rfl) (by rw [h]; decide) (by rw [h]; rfl)

theorem engineStep_bswap (h : s.phase = 3#4) : engineStep s = execBswap s :=
  engineStep_formatU (i := .bswap) (by rw [h]; rfl) (by rw [h]; decide) (by rw [h]; rfl)

theorem engineStep_padbit (h : s.phase = 4#4) : engineStep s = execPadbit s :=
  engineStep_formatU (i := .padbit) (by rw [h]; rfl) (by rw [h]; decide) (by rw [h]; rfl)

theorem engineStep_padlen (h : s.phase = 5#4) : engineStep s = execPadlen s :=
  engineStep_formatU (i := .padlen) (by rw [h]; rfl) (by rw [h]; decide) (by rw [h]; rfl)

theorem engineStep_loadw (h : s.phase = 6#4) : engineStep s = execLoadw s :=
  engineStep_formatU (i := .loadw) (by rw [h]; rfl) (by rw [h]; decide) (by rw [h]; rfl)

theorem engineStep_fold (h : s.phase = 8#4) : engineStep s = execFold s :=
  engineStep_formatU (i := .fold) (by rw [h]; rfl) (by rw [h]; decide) (by rw [h]; rfl)

theorem engineStep_fswap (h : s.phase = 9#4) : engineStep s = execFswap s :=
  engineStep_formatU (i := .fswap) (by rw [h]; rfl) (by rw [h]; decide) (by rw [h]; rfl)

theorem engineStep_unpkb (h : s.phase = 10#4) : engineStep s = execUnpkb s :=
  engineStep_formatU (i := .unpkb) (by rw [h]; rfl) (by rw [h]; decide) (by rw [h]; rfl)

/-- A reserved phase issues a reserved word, which is refused (R87). -/
theorem engineStep_reserved (h : legalPhase s.phase = false) : engineStep s = .refused .reservedUop := by
  have key : ∀ p : BitVec 4, legalPhase p = false →
      quiescent p = false ∧ p ≠ 7#4 ∧ decodeUop (p ++ 0#6) = .error .reservedUop := by decide
  obtain ⟨hq, h7, hd⟩ := key _ h
  simp [engineStep, issueWord, hq, h7, hd]

/-- What an engine step can do: nothing in a quiescent phase, or the micro-operation of the phase. -/
theorem engineStep_eq_next (h : engineStep s = .next s') :
    (quiescent s.phase = true ∧ s = s') ∨
    (s.phase = 1#4 ∧ execInit s = .next s') ∨ (s.phase = 2#4 ∧ execPackb s = .next s') ∨
    (s.phase = 3#4 ∧ execBswap s = .next s') ∨ (s.phase = 4#4 ∧ execPadbit s = .next s') ∨
    (s.phase = 5#4 ∧ execPadlen s = .next s') ∨ (s.phase = 6#4 ∧ execLoadw s = .next s') ∨
    (s.phase = 7#4 ∧ ∃ t, s.t = some t ∧ execStepT t s = .next s') ∨ (s.phase = 8#4 ∧ execFold s = .next s') ∨
    (s.phase = 9#4 ∧ execFswap s = .next s') ∨ (s.phase = 10#4 ∧ execUnpkb s = .next s') := by
  rcases phase_cases s.phase with hp | hp | hp | hp | hp | hp | hp | hp | hp | hp | hp | hp | hp | hp
  · rw [engineStep_quiescent hp] at h
    exact .inl ⟨hp, by simpa using h⟩
  · exact .inr (.inl ⟨hp, engineStep_init hp ▸ h⟩)
  · exact .inr (.inr (.inl ⟨hp, engineStep_packb hp ▸ h⟩))
  · exact .inr (.inr (.inr (.inl ⟨hp, engineStep_bswap hp ▸ h⟩)))
  · exact .inr (.inr (.inr (.inr (.inl ⟨hp, engineStep_padbit hp ▸ h⟩))))
  · exact .inr (.inr (.inr (.inr (.inr (.inl ⟨hp, engineStep_padlen hp ▸ h⟩)))))
  · exact .inr (.inr (.inr (.inr (.inr (.inr (.inl ⟨hp, engineStep_loadw hp ▸ h⟩))))))
  · refine .inr (.inr (.inr (.inr (.inr (.inr (.inr (.inl ⟨hp, ?_⟩)))))))
    cases ht : s.t with
    | none =>
      have hq : quiescent (7#4) = false := rfl
      simp [engineStep, issueWord, hp, ht, hq] at h
    | some t => exact ⟨t, rfl, engineStep_step hp ht ▸ h⟩
  · exact .inr (.inr (.inr (.inr (.inr (.inr (.inr (.inr (.inl ⟨hp, engineStep_fold hp ▸ h⟩))))))))
  · exact .inr (.inr (.inr (.inr (.inr (.inr (.inr (.inr (.inr (.inl ⟨hp, engineStep_fswap hp ▸ h⟩)))))))))
  · exact .inr (.inr (.inr (.inr (.inr (.inr (.inr (.inr (.inr (.inr ⟨hp, engineStep_unpkb hp ▸ h⟩)))))))))
  all_goals rw [engineStep_reserved (by rw [hp]; rfl)] at h; cases h

/-- Which agent a step is: the host, if its next action is due, else the engine (log entry 4). -/
theorem step_cases (s : State) :
    (∃ a rest, s.pending = ⟨0, a⟩ :: rest ∧ step s = hostAct a (s.setPending rest)) ∨
    (∃ p, (∀ a rest, s.pending ≠ ⟨0, a⟩ :: rest) ∧ step s = engineStep (s.setPending p)) := by
  unfold step
  split
  · next h => exact .inr ⟨[], by simp [h], by congr 1; cases s; simp_all [State.setPending]⟩
  · next a rest h => exact .inl ⟨a, rest, h, rfl⟩
  · next k a rest h => exact .inr ⟨⟨k, a⟩ :: rest, by simp [h], rfl⟩

end Sys2Proof.Machine
end

