-- ==== Sys2Proof/Laws/PerInstr.lean ====
section
/-! SUPPORT. One law per instruction: every instruction is encoded by a word that is not reserved. -/

namespace Sys2Proof.Laws.EncodedForm

/-- The word of `i` is defined: a micro-operation word of 30_encoding.md R85, outside R87, or a CMD value of R86, outside
R90. -/
def Statement (i : Instr) : Prop :=
  i.wellFormed = true ∧
    match encode i with
    | .uop u => uopWellFormed u = true
    | .cmd c => cmdWellFormed c = true

theorem init : Statement .init := ⟨rfl, rfl⟩
theorem packb : Statement .packb := ⟨rfl, rfl⟩
theorem bswap : Statement .bswap := ⟨rfl, rfl⟩
theorem padbit : Statement .padbit := ⟨rfl, rfl⟩
theorem padlen : Statement .padlen := ⟨rfl, rfl⟩
theorem loadw : Statement .loadw := ⟨rfl, rfl⟩
theorem step0 : Statement .step0 := ⟨rfl, rfl⟩
theorem step1 : Statement .step1 := ⟨rfl, rfl⟩
theorem step2 : Statement .step2 := ⟨rfl, rfl⟩
theorem step3 : Statement .step3 := ⟨rfl, rfl⟩
theorem step4 : Statement .step4 := ⟨rfl, rfl⟩
theorem step5 : Statement .step5 := ⟨rfl, rfl⟩
theorem step6 : Statement .step6 := ⟨rfl, rfl⟩
theorem step7 : Statement .step7 := ⟨rfl, rfl⟩
theorem step8 : Statement .step8 := ⟨rfl, rfl⟩
theorem step9 : Statement .step9 := ⟨rfl, rfl⟩
theorem step10 : Statement .step10 := ⟨rfl, rfl⟩
theorem step11 : Statement .step11 := ⟨rfl, rfl⟩
theorem step12 : Statement .step12 := ⟨rfl, rfl⟩
theorem step13 : Statement .step13 := ⟨rfl, rfl⟩
theorem step14 : Statement .step14 := ⟨rfl, rfl⟩
theorem step15 : Statement .step15 := ⟨rfl, rfl⟩
theorem step16 : Statement .step16 := ⟨rfl, rfl⟩
theorem step17 : Statement .step17 := ⟨rfl, rfl⟩
theorem step18 : Statement .step18 := ⟨rfl, rfl⟩
theorem step19 : Statement .step19 := ⟨rfl, rfl⟩
theorem step20 : Statement .step20 := ⟨rfl, rfl⟩
theorem step21 : Statement .step21 := ⟨rfl, rfl⟩
theorem step22 : Statement .step22 := ⟨rfl, rfl⟩
theorem step23 : Statement .step23 := ⟨rfl, rfl⟩
theorem step24 : Statement .step24 := ⟨rfl, rfl⟩
theorem step25 : Statement .step25 := ⟨rfl, rfl⟩
theorem step26 : Statement .step26 := ⟨rfl, rfl⟩
theorem step27 : Statement .step27 := ⟨rfl, rfl⟩
theorem step28 : Statement .step28 := ⟨rfl, rfl⟩
theorem step29 : Statement .step29 := ⟨rfl, rfl⟩
theorem step30 : Statement .step30 := ⟨rfl, rfl⟩
theorem step31 : Statement .step31 := ⟨rfl, rfl⟩
theorem step32 : Statement .step32 := ⟨rfl, rfl⟩
theorem step33 : Statement .step33 := ⟨rfl, rfl⟩
theorem step34 : Statement .step34 := ⟨rfl, rfl⟩
theorem step35 : Statement .step35 := ⟨rfl, rfl⟩
theorem step36 : Statement .step36 := ⟨rfl, rfl⟩
theorem step37 : Statement .step37 := ⟨rfl, rfl⟩
theorem step38 : Statement .step38 := ⟨rfl, rfl⟩
theorem step39 : Statement .step39 := ⟨rfl, rfl⟩
theorem step40 : Statement .step40 := ⟨rfl, rfl⟩
theorem step41 : Statement .step41 := ⟨rfl, rfl⟩
theorem step42 : Statement .step42 := ⟨rfl, rfl⟩
theorem step43 : Statement .step43 := ⟨rfl, rfl⟩
theorem step44 : Statement .step44 := ⟨rfl, rfl⟩
theorem step45 : Statement .step45 := ⟨rfl, rfl⟩
theorem step46 : Statement .step46 := ⟨rfl, rfl⟩
theorem step47 : Statement .step47 := ⟨rfl, rfl⟩
theorem step48 : Statement .step48 := ⟨rfl, rfl⟩
theorem step49 : Statement .step49 := ⟨rfl, rfl⟩
theorem step50 : Statement .step50 := ⟨rfl, rfl⟩
theorem step51 : Statement .step51 := ⟨rfl, rfl⟩
theorem step52 : Statement .step52 := ⟨rfl, rfl⟩
theorem step53 : Statement .step53 := ⟨rfl, rfl⟩
theorem step54 : Statement .step54 := ⟨rfl, rfl⟩
theorem step55 : Statement .step55 := ⟨rfl, rfl⟩
theorem step56 : Statement .step56 := ⟨rfl, rfl⟩
theorem step57 : Statement .step57 := ⟨rfl, rfl⟩
theorem step58 : Statement .step58 := ⟨rfl, rfl⟩
theorem step59 : Statement .step59 := ⟨rfl, rfl⟩
theorem step60 : Statement .step60 := ⟨rfl, rfl⟩
theorem step61 : Statement .step61 := ⟨rfl, rfl⟩
theorem step62 : Statement .step62 := ⟨rfl, rfl⟩
theorem step63 : Statement .step63 := ⟨rfl, rfl⟩
theorem fold : Statement .fold := ⟨rfl, rfl⟩
theorem fswap : Statement .fswap := ⟨rfl, rfl⟩
theorem unpkb : Statement .unpkb := ⟨rfl, rfl⟩
theorem start : Statement .start := ⟨rfl, rfl⟩
theorem nop : Statement .nop := ⟨rfl, rfl⟩

end Sys2Proof.Laws.EncodedForm
end

