-- ==== Sys2Proof/Laws/Run.lean ====
section
/-! SUPPORT. Runs: how `Host.Core.run` unfolds, what a step is while the host is silent, and how statements about
stretches of a run are put together. -/

namespace Sys2Proof.Machine

variable {s s' : State}

theorem run_zero (s : State) : Host.Core.run core 0 s = .next s := rfl

theorem run_succ (k : Nat) (h : step s = .next s') : Host.Core.run core (k + 1) s = Host.Core.run core k s' := by
  simp only [Host.Core.run, show core.step s = _ from h]

theorem run_succ_ne_next (k : Nat) (h : ∀ s', step s ≠ .next s') (t : State) :
    Host.Core.run core (k + 1) s ≠ .next t := by
  cases hs : step s with
  | next s₁ => exact absurd hs (h s₁)
  | fault r => simp [Host.Core.run, show core.step s = _ from hs]
  | refused r => simp [Host.Core.run, show core.step s = _ from hs]

/-- A run of `k + m` steps is a run of `k` and then one of `m`. -/
theorem run_add (k m : Nat) (h : Host.Core.run core k s = .next s') :
    Host.Core.run core (k + m) s = Host.Core.run core m s' := by
  induction k generalizing s with
  | zero => rw [run_zero] at h; cases h; rw [Nat.zero_add]
  | succ k ih =>
    rw [Nat.add_right_comm]
    by_cases hs : ∃ s₁, step s = .next s₁
    · obtain ⟨s₁, hs⟩ := hs
      rw [run_succ _ hs] at h ⊢
      exact ih h
    · exact absurd h (run_succ_ne_next k (fun s₁ h₁ => hs ⟨s₁, h₁⟩) s')

/-- The engine's own steps leave the ports, ERRCODE, IN and the model's own fields alone. -/
theorem engineStep_keeps (h : engineStep s = .next s') : SamePorts s s' ∧ s'.inp = s.inp := by
  rcases engineStep_eq_next h with ⟨-, rfl⟩ | ⟨-, h⟩ | ⟨-, h⟩ | ⟨-, h⟩ | ⟨-, h⟩ | ⟨-, h⟩ | ⟨-, h⟩ | ⟨-, t, -, h⟩ |
    ⟨-, h⟩ | ⟨-, h⟩ | ⟨-, h⟩
  · exact ⟨⟨rfl, rfl, rfl, rfl, rfl⟩, rfl⟩
  · obtain ⟨n, -, -, rfl⟩ := execInit_eq_next.1 h; simp [SamePorts, initData]
  · obtain ⟨i, b, x, n, -, -, -, -, rfl⟩ := execPackb_eq_next.1 h; simp [SamePorts]
  · obtain ⟨i, x, n, -, -, -, rfl⟩ := execBswap_eq_next.1 h; simp [SamePorts]
  · obtain ⟨l, x, -, -, rfl⟩ := execPadbit_eq_next.1 h; simp [SamePorts]
  · obtain ⟨l, n, -, -, -, -, -, rfl⟩ := execPadlen_eq_next.1 h; simp [SamePorts]
  · obtain ⟨v, -, rfl⟩ := execLoadw_eq_next.1 h; simp [SamePorts]
  · obtain ⟨r, j, m, -, -, -, rfl⟩ := execStepT_eq_next.1 h; simp [SamePorts]
  · obtain ⟨v, r, j, n, -, -, -, -, rfl⟩ := execFold_eq_next.1 h; simp [SamePorts]
  · obtain ⟨i, x, -, -, rfl⟩ := execFswap_eq_next.1 h; simp [SamePorts]
  · obtain ⟨i, x, -, -, rfl⟩ := execUnpkb_eq_next.1 h; simp [SamePorts]

/-- In particular the host's coming actions. -/
theorem engineStep_pending (h : engineStep s = .next s') : s'.pending = s.pending := (engineStep_keeps h).1.2.2.2.1

/-- While the host is silent a step is an engine step, and the host stays silent for one step less. -/
theorem step_of_undisturbed {k : Nat} (h : undisturbed s (k + 1)) :
    ∃ p, step s = engineStep (s.setPending p) ∧ ∀ s' : State, s'.pending = p → undisturbed s' k := by
  unfold step
  split
  · next h0 => exact ⟨[], by congr 1; cases s; simp_all [State.setPending], fun s' hs' => by simp [undisturbed, hs']⟩
  · next a rest h0 => simp [undisturbed, h0] at h
  · next m a rest h0 =>
    refine ⟨_, rfl, fun s' hs' => ?_⟩
    simp [undisturbed, h0] at h
    simp [undisturbed, hs', h]

/-! ### What a state issues -/

theorem issues_of_phase {i : Instr} (h : decodeUop (s.phase ++ 0#6) = .ok i) (h7 : s.phase ≠ Phase.step) : Issues s i :=
  ⟨_, .inl ⟨h7, rfl⟩, h⟩

theorem issues_step {t : BitVec 6} (h7 : s.phase = Phase.step) (ht : s.t = some t) : Issues s (stepInstr t) :=
  ⟨_, .inr ⟨h7, t, ht, rfl⟩, decodeUop_step t⟩

/-- A state that issues something is busy. -/
theorem busy_of_issues {i : Instr} (h : Issues s i) : busy s.phase = true := by
  obtain ⟨u, ⟨h7, rfl⟩ | ⟨h7, -⟩, hd⟩ := h
  · rcases phase_cases s.phase with hq | hb | hb | hb | hb | hb | hb | hb | hb | hb | hb | hr
    · rcases (quiescent_iff _).1 hq with hp | hp | hp <;> rw [hp] at hd <;> cases hd
    all_goals first
      | (rw [hb]; rfl)
      | skip
    rcases hr with hp | hp | hp <;> rw [hp] at hd <;> cases hd
  · rw [h7]; rfl

/-- From every state with `P`, while the host is silent, one step for each instruction of `l` leads to a state with `Q`,
and the states on the way issue the instructions of `l` in order. -/
def Reaches (P : State → Prop) (l : List Instr) (Q : State → Prop) : Prop :=
  ∀ s m, P s → undisturbed s (l.length + m) →
    (∃ s', Host.Core.run core l.length s = .next s' ∧ Q s' ∧ undisturbed s' m) ∧
      ∀ k i, l[k]? = some i → ∃ t : State, Host.Core.run core k s = .next t ∧ Issues t i

variable {P P' Q Q' R : State → Prop} {l l' : List Instr}

theorem Reaches.refl (h : ∀ s, P s → Q s) : Reaches P [] Q := fun s m hP hu =>
  ⟨⟨s, rfl, h s hP, by simpa using hu⟩, fun k i hk => by simp at hk⟩

/-- One engine step. `P` says nothing about the host's coming actions. -/
theorem Reaches.one {i : Instr} (hP : ∀ s p, P s → P (s.setPending p)) (hi : ∀ s, P s → Issues s i)
    (h : ∀ s, P s → ∃ s', engineStep s = .next s' ∧ Q s') : Reaches P [i] Q := by
  intro s m hPs hu
  obtain ⟨p, hs, hp⟩ := step_of_undisturbed (k := m) (by simpa [Nat.add_comm] using hu)
  obtain ⟨s', he, hQ⟩ := h _ (hP s p hPs)
  refine ⟨⟨s', ?_, hQ, hp _ (by rw [engineStep_pending he]; rfl)⟩, fun k i' hk => ?_⟩
  · rw [List.length_singleton, run_succ 0 (hs.trans he)]; rfl
  · cases k with
    | zero => cases hk; exact ⟨s, rfl, hi s hPs⟩
    | succ k => simp at hk

theorem Reaches.trans (h₁ : Reaches P l Q) (h₂ : Reaches Q l' R) : Reaches P (l ++ l') R := by
  intro s m hP hu
  rw [List.length_append] at hu ⊢
  obtain ⟨⟨s₁, hr₁, hQ, hu₁⟩, hi₁⟩ := h₁ s (l'.length + m) hP (by rwa [← Nat.add_assoc])
  obtain ⟨⟨s₂, hr₂, hR, hu₂⟩, hi₂⟩ := h₂ s₁ m hQ hu₁
  refine ⟨⟨s₂, by rw [run_add _ _ hr₁, hr₂], hR, hu₂⟩, fun k i hk => ?_⟩
  by_cases hlt : k < l.length
  · rw [List.getElem?_append_left hlt] at hk
    exact hi₁ k i hk
  · rw [List.getElem?_append_right (Nat.le_of_not_lt hlt)] at hk
    obtain ⟨t, ht, hi⟩ := hi₂ _ i hk
    exact ⟨t, by rw [show k = l.length + (k - l.length) by omega, run_add _ _ hr₁, ht], hi⟩

theorem Reaches.mono (h : Reaches P l Q) (hP : ∀ s, P' s → P s) (hQ : ∀ s, Q s → Q' s) : Reaches P' l Q' := by
  intro s m h' hu
  obtain ⟨⟨s', h₁, h₂, h₃⟩, hi⟩ := h s m (hP s h') hu
  exact ⟨⟨s', h₁, hQ _ h₂, h₃⟩, hi⟩

/-- A loop of `n` stretches, stretch `i` issuing `l i`. -/
theorem Reaches.loop {P : Nat → State → Prop} {l : Nat → List Instr} {n : Nat}
    (h : ∀ i < n, Reaches (P i) (l i) (P (i + 1))) : Reaches (P 0) ((List.range n).flatMap l) (P n) := by
  induction n with
  | zero => exact Reaches.refl fun _ h => h
  | succ n ih =>
    rw [List.range_succ, List.flatMap_append, List.flatMap_singleton]
    exact (ih fun i hi => h i (by omega)).trans (h n (by omega))

/-- What a stretch of `k` steps leads to. -/
theorem Reaches.run_eq (h : Reaches P l Q) (hP : P s) (k : Nat) (hk : l.length = k) (hu : undisturbed s k) :
    ∃ s' : State, Host.Core.run core k s = .next s' ∧ Q s' := by
  subst hk
  obtain ⟨⟨s', h₁, h₂, -⟩, -⟩ := h s 0 hP hu
  exact ⟨s', h₁, h₂⟩

/-! ### The lists of R92 as loops -/

theorem stepInstrs_eq_flatMap : stepInstrs = (List.range 64).flatMap fun t => [stepInstr (BitVec.ofNat 6 t)] := by decide

theorem replicate_eq_flatMap (n : Nat) (i : Instr) : List.replicate n i = (List.range n).flatMap fun _ => [i] := by
  induction n with
  | zero => rfl
  | succ n ih => rw [List.range_succ, List.flatMap_append, ← ih, List.replicate_succ']; rfl

theorem repeated_eq_flatMap (n : Nat) (l : List Instr) : repeated n l = (List.range n).flatMap fun _ => l := by
  have hsucc : ∀ k, repeated (k + 1) l = repeated k l ++ l := by
    intro k
    induction k with
    | zero => simp [repeated]
    | succ k ih => rw [repeated, ih, ← List.append_assoc, ← repeated, ih]
  induction n with
  | zero => rfl
  | succ n ih => rw [hsucc, ih, List.range_succ, List.flatMap_append, List.flatMap_singleton]

end Sys2Proof.Machine
end

