-- ==== Sys2Proof/Tests/Slice0.lean ====
section
/-! SUPPORT. The model's own tests. Every expected result is the spec's: a worked example of a rule, a row of
95_test_vectors.md, or a word written out from the encoding of 30_encoding.md. `witness_…` shows that the hypotheses of a
statement are met together. -/

namespace Sys2Proof.Tests

open Sys2Proof.Machine

/-! ## Well-formedness: each check refuses an ill-formed word -/

/-- `uopPhaseOk` refuses phase codes 0, 11 and 14 (95_test_vectors.md section 6). -/
theorem test_wellFormed_phase : uopPhaseOk 0x000#10 = false ∧ uopPhaseOk 0x2c0#10 = false ∧ uopPhaseOk 0x380#10 = false ∧
    uopPhaseOk 0x040#10 = true ∧ uopPhaseOk 0x280#10 = true := by decide

/-- `uopLowOk` refuses PACKB with a low bit set, and takes any low bits in format S. -/
theorem test_wellFormed_low : uopLowOk 0x081#10 = false ∧ uopLowOk 0x080#10 = true ∧ uopLowOk 0x1ff#10 = true := by decide

theorem test_wellFormed_uop : uopWellFormed 0x081#10 = false ∧ uopWellFormed 0x3ff#10 = false ∧
    uopWellFormed 0x1e3#10 = true := by decide

/-- `cmdWellFormed` refuses the reserved values of CMD. -/
theorem test_wellFormed_cmd : cmdWellFormed 2#2 = false ∧ cmdWellFormed 3#2 = false ∧ cmdWellFormed 1#2 = true := by decide

/-! ## Decoding: words written out bit by bit (30_encoding.md R85, R86) -/

/-- WordCodec: PACKB, BSWAP, UNPKB. -/
theorem test_decode_codec : decodeUop 0b0010000000#10 = .ok .packb ∧ decodeUop 0b0011000000#10 = .ok .bswap ∧
    decodeUop 0b1010000000#10 = .ok .unpkb := ⟨rfl, rfl, rfl⟩

/-- PaddingEncoder: PADBIT, PADLEN. -/
theorem test_decode_padding : decodeUop 0b0100000000#10 = .ok .padbit ∧ decodeUop 0b0101000000#10 = .ok .padlen := ⟨rfl, rfl⟩

/-- DigestController: INIT, LOADW, FOLD, FSWAP, START, NOP. -/
theorem test_decode_controller : decodeUop 0b0001000000#10 = .ok .init ∧ decodeUop 0b0110000000#10 = .ok .loadw ∧
    decodeUop 0b1000000000#10 = .ok .fold ∧ decodeUop 0b1001000000#10 = .ok .fswap ∧ decodeCmd 0b01#2 = .ok .start ∧
    decodeCmd 0b00#2 = .ok .nop := ⟨rfl, rfl, rfl, rfl, rfl, rfl⟩

/-- The sixteen steps of round 1: 0111 rr iiii. -/
theorem test_decode_round_one :
    ([(0b0111000000#10, .step0),
      (0b0111000001#10, .step1),
      (0b0111000010#10, .step2),
      (0b0111000011#10, .step3),
      (0b0111000100#10, .step4),
      (0b0111000101#10, .step5),
      (0b0111000110#10, .step6),
      (0b0111000111#10, .step7),
      (0b0111001000#10, .step8),
      (0b0111001001#10, .step9),
      (0b0111001010#10, .step10),
      (0b0111001011#10, .step11),
      (0b0111001100#10, .step12),
      (0b0111001101#10, .step13),
      (0b0111001110#10, .step14),
      (0b0111001111#10, .step15)] : List (BitVec 10 × Instr)).all (fun x => decodeUop x.1 == .ok x.2) = true := by decide

/-- The sixteen steps of round 2: 0111 rr iiii. -/
theorem test_decode_round_two :
    ([(0b0111010000#10, .step16),
      (0b0111010001#10, .step17),
      (0b0111010010#10, .step18),
      (0b0111010011#10, .step19),
      (0b0111010100#10, .step20),
      (0b0111010101#10, .step21),
      (0b0111010110#10, .step22),
      (0b0111010111#10, .step23),
      (0b0111011000#10, .step24),
      (0b0111011001#10, .step25),
      (0b0111011010#10, .step26),
      (0b0111011011#10, .step27),
      (0b0111011100#10, .step28),
      (0b0111011101#10, .step29),
      (0b0111011110#10, .step30),
      (0b0111011111#10, .step31)] : List (BitVec 10 × Instr)).all (fun x => decodeUop x.1 == .ok x.2) = true := by decide

/-- The sixteen steps of round 3: 0111 rr iiii. -/
theorem test_decode_round_three :
    ([(0b0111100000#10, .step32),
      (0b0111100001#10, .step33),
      (0b0111100010#10, .step34),
      (0b0111100011#10, .step35),
      (0b0111100100#10, .step36),
      (0b0111100101#10, .step37),
      (0b0111100110#10, .step38),
      (0b0111100111#10, .step39),
      (0b0111101000#10, .step40),
      (0b0111101001#10, .step41),
      (0b0111101010#10, .step42),
      (0b0111101011#10, .step43),
      (0b0111101100#10, .step44),
      (0b0111101101#10, .step45),
      (0b0111101110#10, .step46),
      (0b0111101111#10, .step47)] : List (BitVec 10 × Instr)).all (fun x => decodeUop x.1 == .ok x.2) = true := by decide

/-- The sixteen steps of round 4: 0111 rr iiii. -/
theorem test_decode_round_four :
    ([(0b0111110000#10, .step48),
      (0b0111110001#10, .step49),
      (0b0111110010#10, .step50),
      (0b0111110011#10, .step51),
      (0b0111110100#10, .step52),
      (0b0111110101#10, .step53),
      (0b0111110110#10, .step54),
      (0b0111110111#10, .step55),
      (0b0111111000#10, .step56),
      (0b0111111001#10, .step57),
      (0b0111111010#10, .step58),
      (0b0111111011#10, .step59),
      (0b0111111100#10, .step60),
      (0b0111111101#10, .step61),
      (0b0111111110#10, .step62),
      (0b0111111111#10, .step63)] : List (BitVec 10 × Instr)).all (fun x => decodeUop x.1 == .ok x.2) = true := by decide

/-- The reserved words and CMD values of 95_test_vectors.md section 6. -/
theorem test_decode_reserved : decodeUop 0x000#10 = .error .reservedUop ∧ decodeUop 0x081#10 = .error .reservedUop ∧
    decodeUop 0x2c0#10 = .error .reservedUop ∧ decodeUop 0x380#10 = .error .reservedUop ∧
    decodeUop 0x3ff#10 = .error .reservedUop ∧ decodeCmd 2#2 = .error .reservedCmd ∧
    decodeCmd 3#2 = .error .reservedCmd := ⟨rfl, rfl, rfl, rfl, rfl, rfl, rfl⟩

/-- Rows of the opcode table as the host numbers them. -/
theorem test_decodeTableWord : decodeTableWord 16 0x1e3 = some .step35 ∧ decodeTableWord 16 0x280 = some .unpkb ∧
    decodeTableWord 8 1 = some .start ∧ decodeTableWord 8 0 = some .nop ∧ decodeTableWord 8 2 = none ∧
    decodeTableWord 16 0x081 = none ∧ decodeTableWord 16 0x400 = none := by decide

/-! ## States for the tests -/

/-- The words `0 .. k-1`, each `v`. -/
def wordsOf (k : Nat) (v : Word) : Memory 32 := (List.range k).map fun i => (i, v)

/-- A state in phase `p` in which every place the engine may read holds a value: the message `61 62 63` of one block,
counters at 0, ST the initial constants. -/
def sample (p : BitVec 4) : State :=
  { State.reset with
    wr := ⟨some 1#32, some 2#32, some 3#32, some 4#32⟩
    st := initialState.valued
    q := ⟨some 0x90015098#32, some 0x3cd24fb0#32, some 0xd6963f7d#32, some 0x28e17f72#32⟩
    len := some 24#64
    nwm := some 1
    nw := some 16
    nb := some 1
    phase := p
    idx := some 0
    j := some 0
    t := some 0#6
    n := some 3
    present := some true
    inp := [(0, 0x61#8), (1, 0x62#8), (2, 0x63#8)]
    w := wordsOf 16 0#32 }

/-- The state an action answers, if it answers one. -/
def after (r : Result) : Option State :=
  match r with
  | .next s => some s
  | .fault _ => none
  | .refused _ => none

/-- An action answers a state of which `p` holds. -/
def leads (r : Result) (p : State → Bool) : Bool :=
  match after r with
  | some s => p s
  | none => false

/-! ## The spec's worked examples, one step each -/

/-- R101: `idx = 1`, `IN[1] = 0x62`, `W[0] = 0x61000000` gives `W[0] = 0x61620000`. -/
theorem test_packb_example : leads (exec .packb { sample 2#4 with idx := some 1, w := wordsOf 16 0x61000000#32 })
    (fun t => Memory.read t.w 0 == some 0x61620000#32 && t.idx == some 2 && t.phase == 2#4) = true := by decide

/-- 95_test_vectors.md section 5: PACKB 4 of a five-byte message goes to word 1, shift 24, and ends the packing. -/
theorem test_packb_next_word : leads
    (exec .packb { sample 2#4 with idx := some 4, n := some 5, inp := [(4, 0x65#8)] })
    (fun t => Memory.read t.w 1 == some 0x65000000#32 && Memory.read t.w 0 == some 0#32 && t.idx == some 0 &&
      t.phase == 3#4) = true := by decide

/-- R102: `W[0] = 0x61626300` gives `W[0] = 0x00636261`; the last word ends the swapping. -/
theorem test_bswap_example : leads (exec .bswap { sample 3#4 with w := wordsOf 1 0x61626300#32 })
    (fun t => Memory.read t.w 0 == some 0x00636261#32 && t.idx == some 0 && t.phase == 4#4) = true := by decide

/-- R103: `idx = 0`, `Q[0] = 0x90015098` gives `OUT[0] = 0x90`. -/
theorem test_unpkb_first : leads (exec .unpkb (sample 10#4))
    (fun t => Memory.read t.out 0 == some 0x90#8 && t.idx == some 1 && t.phase == 10#4) = true := by decide

/-- R259 with R103: the sixteenth byte is the low byte of `Q[3]`, and leads to DONE with `idx` left at 15. -/
theorem test_unpkb_last : leads (exec .unpkb { sample 10#4 with idx := some 15 })
    (fun t => Memory.read t.out 15 == some 0x72#8 && t.idx == some 15 && t.phase == 14#4) = true := by decide

/-- R121: `N = 3`, `LEN = 24`, `W[0] = 0x00636261` gives `W[0] = 0x80636261`. -/
theorem test_padbit_shares_word : leads (exec .padbit { sample 4#4 with w := wordsOf 16 0x00636261#32 })
    (fun t => Memory.read t.w 0 == some 0x80636261#32 && t.phase == 5#4) = true := by decide

/-- 95_test_vectors.md section 3, `N = 4`: the terminator takes the fresh word 1. -/
theorem test_padbit_fresh_word : leads (exec .padbit { sample 4#4 with len := some 32#64 })
    (fun t => Memory.read t.w 1 == some 0x00000080#32 && Memory.read t.w 0 == some 0#32) = true := by decide

/-- R123: `N = 3`, `NW = 16`: `W[14] = 0x00000018`, `W[15] = 0x00000000`. -/
theorem test_padlen_example : leads (exec .padlen { sample 5#4 with w := wordsOf 16 0xffffffff#32 })
    (fun t => Memory.read t.w 14 == some 0x18#32 && Memory.read t.w 15 == some 0#32 && t.j == some 0 &&
      t.phase == 6#4) = true := by decide

/-- R123 corner case 3: the largest length has both halves not zero. -/
theorem test_padlen_largest : leads (exec .padlen { sample 5#4 with len := some (BitVec.ofNat 64 (8 * (2 ^ 61 - 1))) })
    (fun t => Memory.read t.w 14 == some 0xfffffff8#32 && Memory.read t.w 15 == some 0xffffffff#32) = true := by decide

/-- R241: `N = 56` gives `LEN = 448`, `NWM = 14`, `NW = 32`, `NB = 2`. (`initData` is what INIT writes: whether this
instance accepts 56 bytes is an open parameter.) -/
theorem test_init_example : (initData 56 State.reset).len = some 448#64 ∧ (initData 56 State.reset).nwm = some 14 ∧
    (initData 56 State.reset).nw = some 32 ∧ (initData 56 State.reset).nb = some 2 ∧
    Memory.read (initData 56 State.reset).w 31 = some 0#32 ∧ Memory.read (initData 56 State.reset).w 32 = none := by decide

/-- R241 corner case 2 and R250: the empty message goes straight to PADBIT; stale words from NW on stay. -/
theorem test_init_empty : leads (exec .init { sample 1#4 with n := some 0, w := wordsOf 18 7#32, out := [(3, 1#8)] })
    (fun t => t.phase == 4#4 && t.nwm == some 0 && t.nw == some 16 && t.nb == some 1 && Memory.read t.w 15 == some 0#32 &&
      Memory.read t.w 16 == some 7#32 && t.out == [] && t.wr == (sample 1#4).wr) = true := by decide

/-- R243: block 0 of any message starts from the four constants. -/
theorem test_loadw_example : leads (exec .loadw (sample 6#4))
    (fun t => t.wr == ⟨some 0x67452301#32, some 0xefcdab89#32, some 0x98badcfe#32, some 0x10325476#32⟩ && t.t == some 0#6 &&
      t.phase == 7#4) = true := by decide

/-- R244: the empty message's FOLD; the second and third sums wrap. -/
theorem test_fold_example : leads (exec .fold { sample 8#4 with
      wr := ⟨some 0x7246fad3#32, some 0x14e45506#32, some 0xff4ea3eb#32, some 0x6e10a476#32⟩ })
    (fun t => t.st == ⟨some 0xd98c1dd4#32, some 0x04b2008f#32, some 0x980980e9#32, some 0x7e42f8ec#32⟩ &&
      t.phase == 9#4 && t.idx == some 0) = true := by decide

/-- R257: with a block left, FOLD goes on with it. -/
theorem test_fold_next_block : leads (exec .fold { sample 8#4 with nb := some 2 })
    (fun t => t.j == some 1 && t.phase == 6#4) = true := by decide

/-- R245: `ST[0] = d98c1dd4` gives `Q[0] = d41d8cd9`. -/
theorem test_fswap_example : leads (exec .fswap { sample 9#4 with st := ⟨some 0xd98c1dd4#32, none, none, none⟩ })
    (fun t => t.q.a == some 0xd41d8cd9#32 && t.q.b == some 0x3cd24fb0#32 && t.idx == some 1 && t.phase == 9#4) = true := by
  decide

/-- R258: the fourth FSWAP leads to UNPKB with `idx` 0. -/
theorem test_fswap_last : leads (exec .fswap { sample 9#4 with idx := some 3 })
    (fun t => t.q.d == some 0x76543210#32 && t.idx == some 0 && t.phase == 10#4) = true := by decide

/-- A state in which STEPt reads registers `r` and, in every word of its block, `m`. -/
def stepState (r : Quad Word) (m : Word) : State := { sample 7#4 with wr := r.valued, w := wordsOf 16 m }

/-- The block words `M[i] = 0x01010101 * i` of 95_test_vectors.md section 4. -/
def vectorState (r : Quad Word) : State :=
  { sample 7#4 with wr := r.valued, w := (List.range 16).map fun i => (i, 0x01010101#32 * BitVec.ofNat 32 i) }

/-- A step's registers afterwards are `r`. -/
def givesRegs (i : Instr) (s : State) (r : Quad Word) : Bool := leads (exec i s) fun t => t.wr == r.valued

/-- The examples of R160 to R167: the empty message, each step from its registers before to those after. -/
theorem test_steps_round_one_first :
    givesRegs .step0 (stepState ⟨0x67452301#32, 0xefcdab89#32, 0x98badcfe#32, 0x10325476#32⟩ 0x00000080#32) ⟨0x10325476#32, 0xa5202774#32, 0xefcdab89#32, 0x98badcfe#32⟩ = true ∧
    givesRegs .step1 (stepState ⟨0x10325476#32, 0xa5202774#32, 0xefcdab89#32, 0x98badcfe#32⟩ 0x00000000#32) ⟨0x98badcfe#32, 0xf59592dd#32, 0xa5202774#32, 0xefcdab89#32⟩ = true ∧
    givesRegs .step2 (stepState ⟨0x98badcfe#32, 0xf59592dd#32, 0xa5202774#32, 0xefcdab89#32⟩ 0x00000000#32) ⟨0xefcdab89#32, 0xe7f06b23#32, 0xf59592dd#32, 0xa5202774#32⟩ = true ∧
    givesRegs .step3 (stepState ⟨0xefcdab89#32, 0xe7f06b23#32, 0xf59592dd#32, 0xa5202774#32⟩ 0x00000000#32) ⟨0xa5202774#32, 0x1b163203#32, 0xe7f06b23#32, 0xf59592dd#32⟩ = true ∧
    givesRegs .step4 (stepState ⟨0xa5202774#32, 0x1b163203#32, 0xe7f06b23#32, 0xf59592dd#32⟩ 0x00000000#32) ⟨0xf59592dd#32, 0x32033344#32, 0x1b163203#32, 0xe7f06b23#32⟩ = true ∧
    givesRegs .step5 (stepState ⟨0xf59592dd#32, 0x32033344#32, 0x1b163203#32, 0xe7f06b23#32⟩ 0x00000000#32) ⟨0xe7f06b23#32, 0x2f35d494#32, 0x32033344#32, 0x1b163203#32⟩ = true ∧
    givesRegs .step6 (stepState ⟨0xe7f06b23#32, 0x2f35d494#32, 0x32033344#32, 0x1b163203#32⟩ 0x00000000#32) ⟨0x1b163203#32, 0xf5b158db#32, 0x2f35d494#32, 0x32033344#32⟩ = true ∧
    givesRegs .step7 (stepState ⟨0x1b163203#32, 0xf5b158db#32, 0x2f35d494#32, 0x32033344#32⟩ 0x00000000#32) ⟨0x32033344#32, 0x9bc13ce9#32, 0xf5b158db#32, 0x2f35d494#32⟩ = true := by decide +kernel

/-- The examples of R168 to R175: the empty message, each step from its registers before to those after. -/
theorem test_steps_round_one_last :
    givesRegs .step8 (stepState ⟨0x32033344#32, 0x9bc13ce9#32, 0xf5b158db#32, 0x2f35d494#32⟩ 0x00000000#32) ⟨0x2f35d494#32, 0x3893b991#32, 0x9bc13ce9#32, 0xf5b158db#32⟩ = true ∧
    givesRegs .step9 (stepState ⟨0x2f35d494#32, 0x3893b991#32, 0x9bc13ce9#32, 0xf5b158db#32⟩ 0x00000000#32) ⟨0xf5b158db#32, 0xfce4a312#32, 0x3893b991#32, 0x9bc13ce9#32⟩ = true ∧
    givesRegs .step10 (stepState ⟨0xf5b158db#32, 0xfce4a312#32, 0x3893b991#32, 0x9bc13ce9#32⟩ 0x00000000#32) ⟨0x9bc13ce9#32, 0xe1ef0576#32, 0xfce4a312#32, 0x3893b991#32⟩ = true ∧
    givesRegs .step11 (stepState ⟨0x9bc13ce9#32, 0xe1ef0576#32, 0xfce4a312#32, 0x3893b991#32⟩ 0x00000000#32) ⟨0x3893b991#32, 0x70768a29#32, 0xe1ef0576#32, 0xfce4a312#32⟩ = true ∧
    givesRegs .step12 (stepState ⟨0x3893b991#32, 0x70768a29#32, 0xe1ef0576#32, 0xfce4a312#32⟩ 0x00000000#32) ⟨0xfce4a312#32, 0xf56c7cf1#32, 0x70768a29#32, 0xe1ef0576#32⟩ = true ∧
    givesRegs .step13 (stepState ⟨0xfce4a312#32, 0xf56c7cf1#32, 0x70768a29#32, 0xe1ef0576#32⟩ 0x00000000#32) ⟨0xe1ef0576#32, 0x374943a7#32, 0xf56c7cf1#32, 0x70768a29#32⟩ = true ∧
    givesRegs .step14 (stepState ⟨0xe1ef0576#32, 0x374943a7#32, 0xf56c7cf1#32, 0x70768a29#32⟩ 0x00000000#32) ⟨0x70768a29#32, 0x5aa53f75#32, 0x374943a7#32, 0xf56c7cf1#32⟩ = true ∧
    givesRegs .step15 (stepState ⟨0x70768a29#32, 0x5aa53f75#32, 0x374943a7#32, 0xf56c7cf1#32⟩ 0x00000000#32) ⟨0xf56c7cf1#32, 0xd6819c6a#32, 0x5aa53f75#32, 0x374943a7#32⟩ = true := by decide +kernel

/-- The examples of R176 to R183: the empty message, each step from its registers before to those after. -/
theorem test_steps_round_two_first :
    givesRegs .step16 (stepState ⟨0xf56c7cf1#32, 0xd6819c6a#32, 0x5aa53f75#32, 0x374943a7#32⟩ 0x00000000#32) ⟨0x374943a7#32, 0x1c7d7513#32, 0xd6819c6a#32, 0x5aa53f75#32⟩ = true ∧
    givesRegs .step17 (stepState ⟨0x374943a7#32, 0x1c7d7513#32, 0xd6819c6a#32, 0x5aa53f75#32⟩ 0x00000000#32) ⟨0x5aa53f75#32, 0x7bd57a3a#32, 0x1c7d7513#32, 0xd6819c6a#32⟩ = true ∧
    givesRegs .step18 (stepState ⟨0x5aa53f75#32, 0x7bd57a3a#32, 0x1c7d7513#32, 0xd6819c6a#32⟩ 0x00000000#32) ⟨0xd6819c6a#32, 0xc095f13a#32, 0x7bd57a3a#32, 0x1c7d7513#32⟩ = true ∧
    givesRegs .step19 (stepState ⟨0xd6819c6a#32, 0xc095f13a#32, 0x7bd57a3a#32, 0x1c7d7513#32⟩ 0x00000080#32) ⟨0x1c7d7513#32, 0xbd782e17#32, 0xc095f13a#32, 0x7bd57a3a#32⟩ = true ∧
    givesRegs .step20 (stepState ⟨0x1c7d7513#32, 0xbd782e17#32, 0xc095f13a#32, 0x7bd57a3a#32⟩ 0x00000000#32) ⟨0x7bd57a3a#32, 0x3d1e3e6c#32, 0xbd782e17#32, 0xc095f13a#32⟩ = true ∧
    givesRegs .step21 (stepState ⟨0x7bd57a3a#32, 0x3d1e3e6c#32, 0xbd782e17#32, 0xc095f13a#32⟩ 0x00000000#32) ⟨0xc095f13a#32, 0x68b7b3e3#32, 0x3d1e3e6c#32, 0xbd782e17#32⟩ = true ∧
    givesRegs .step22 (stepState ⟨0xc095f13a#32, 0x68b7b3e3#32, 0x3d1e3e6c#32, 0xbd782e17#32⟩ 0x00000000#32) ⟨0xbd782e17#32, 0xeb41643e#32, 0x68b7b3e3#32, 0x3d1e3e6c#32⟩ = true ∧
    givesRegs .step23 (stepState ⟨0xbd782e17#32, 0xeb41643e#32, 0x68b7b3e3#32, 0x3d1e3e6c#32⟩ 0x00000000#32) ⟨0x3d1e3e6c#32, 0xe422531a#32, 0xeb41643e#32, 0x68b7b3e3#32⟩ = true := by decide +kernel

/-- The examples of R184 to R191: the empty message, each step from its registers before to those after. -/
theorem test_steps_round_two_last :
    givesRegs .step24 (stepState ⟨0x3d1e3e6c#32, 0xe422531a#32, 0xeb41643e#32, 0x68b7b3e3#32⟩ 0x00000000#32) ⟨0x68b7b3e3#32, 0x306ec122#32, 0xe422531a#32, 0xeb41643e#32⟩ = true ∧
    givesRegs .step25 (stepState ⟨0x68b7b3e3#32, 0x306ec122#32, 0xe422531a#32, 0xeb41643e#32⟩ 0x00000000#32) ⟨0xeb41643e#32, 0xd28c77c2#32, 0x306ec122#32, 0xe422531a#32⟩ = true ∧
    givesRegs .step26 (stepState ⟨0xeb41643e#32, 0xd28c77c2#32, 0x306ec122#32, 0xe422531a#32⟩ 0x00000000#32) ⟨0xe422531a#32, 0xa3c663da#32, 0xd28c77c2#32, 0x306ec122#32⟩ = true ∧
    givesRegs .step27 (stepState ⟨0xe422531a#32, 0xa3c663da#32, 0xd28c77c2#32, 0x306ec122#32⟩ 0x00000000#32) ⟨0x306ec122#32, 0xa0572807#32, 0xa3c663da#32, 0xd28c77c2#32⟩ = true ∧
    givesRegs .step28 (stepState ⟨0x306ec122#32, 0xa0572807#32, 0xa3c663da#32, 0xd28c77c2#32⟩ 0x00000000#32) ⟨0xd28c77c2#32, 0x13707036#32, 0xa0572807#32, 0xa3c663da#32⟩ = true ∧
    givesRegs .step29 (stepState ⟨0xd28c77c2#32, 0x13707036#32, 0xa0572807#32, 0xa3c663da#32⟩ 0x00000000#32) ⟨0xa3c663da#32, 0xae7813db#32, 0x13707036#32, 0xa0572807#32⟩ = true ∧
    givesRegs .step30 (stepState ⟨0xa3c663da#32, 0xae7813db#32, 0x13707036#32, 0xa0572807#32⟩ 0x00000000#32) ⟨0xa0572807#32, 0x1c31c384#32, 0xae7813db#32, 0x13707036#32⟩ = true ∧
    givesRegs .step31 (stepState ⟨0xa0572807#32, 0x1c31c384#32, 0xae7813db#32, 0x13707036#32⟩ 0x00000000#32) ⟨0x13707036#32, 0xa2205f1f#32, 0x1c31c384#32, 0xae7813db#32⟩ = true := by decide +kernel

/-- The examples of R192 to R199: the empty message, each step from its registers before to those after. -/
theorem test_steps_round_three_first :
    givesRegs .step32 (stepState ⟨0x13707036#32, 0xa2205f1f#32, 0x1c31c384#32, 0xae7813db#32⟩ 0x00000000#32) ⟨0xae7813db#32, 0xdf63eaa1#32, 0xa2205f1f#32, 0x1c31c384#32⟩ = true ∧
    givesRegs .step33 (stepState ⟨0xae7813db#32, 0xdf63eaa1#32, 0xa2205f1f#32, 0x1c31c384#32⟩ 0x00000000#32) ⟨0x1c31c384#32, 0xc3689f5b#32, 0xdf63eaa1#32, 0xa2205f1f#32⟩ = true ∧
    givesRegs .step34 (stepState ⟨0x1c31c384#32, 0xc3689f5b#32, 0xdf63eaa1#32, 0xa2205f1f#32⟩ 0x00000000#32) ⟨0xa2205f1f#32, 0x12f3e755#32, 0xc3689f5b#32, 0xdf63eaa1#32⟩ = true ∧
    givesRegs .step35 (stepState ⟨0xa2205f1f#32, 0x12f3e755#32, 0xc3689f5b#32, 0xdf63eaa1#32⟩ 0x00000000#32) ⟨0xdf63eaa1#32, 0x004b6669#32, 0x12f3e755#32, 0xc3689f5b#32⟩ = true ∧
    givesRegs .step36 (stepState ⟨0xdf63eaa1#32, 0x004b6669#32, 0x12f3e755#32, 0xc3689f5b#32⟩ 0x00000000#32) ⟨0xc3689f5b#32, 0x5f7a9b2e#32, 0x004b6669#32, 0x12f3e755#32⟩ = true ∧
    givesRegs .step37 (stepState ⟨0xc3689f5b#32, 0x5f7a9b2e#32, 0x004b6669#32, 0x12f3e755#32⟩ 0x00000000#32) ⟨0x12f3e755#32, 0xabc34e16#32, 0x5f7a9b2e#32, 0x004b6669#32⟩ = true ∧
    givesRegs .step38 (stepState ⟨0x12f3e755#32, 0xabc34e16#32, 0x5f7a9b2e#32, 0x004b6669#32⟩ 0x00000000#32) ⟨0x004b6669#32, 0x91ca4cb7#32, 0xabc34e16#32, 0x5f7a9b2e#32⟩ = true ∧
    givesRegs .step39 (stepState ⟨0x004b6669#32, 0x91ca4cb7#32, 0xabc34e16#32, 0x5f7a9b2e#32⟩ 0x00000000#32) ⟨0x5f7a9b2e#32, 0xc5dc8c15#32, 0x91ca4cb7#32, 0xabc34e16#32⟩ = true := by decide +kernel

/-- The examples of R200 to R207: the empty message, each step from its registers before to those after. -/
theorem test_steps_round_three_last :
    givesRegs .step40 (stepState ⟨0x5f7a9b2e#32, 0xc5dc8c15#32, 0x91ca4cb7#32, 0xabc34e16#32⟩ 0x00000000#32) ⟨0xabc34e16#32, 0x4497169d#32, 0xc5dc8c15#32, 0x91ca4cb7#32⟩ = true ∧
    givesRegs .step41 (stepState ⟨0xabc34e16#32, 0x4497169d#32, 0xc5dc8c15#32, 0x91ca4cb7#32⟩ 0x00000080#32) ⟨0x91ca4cb7#32, 0x76fd93d4#32, 0x4497169d#32, 0xc5dc8c15#32⟩ = true ∧
    givesRegs .step42 (stepState ⟨0x91ca4cb7#32, 0x76fd93d4#32, 0x4497169d#32, 0xc5dc8c15#32⟩ 0x00000000#32) ⟨0xc5dc8c15#32, 0xfd95f243#32, 0x76fd93d4#32, 0x4497169d#32⟩ = true ∧
    givesRegs .step43 (stepState ⟨0xc5dc8c15#32, 0xfd95f243#32, 0x76fd93d4#32, 0x4497169d#32⟩ 0x00000000#32) ⟨0x4497169d#32, 0x0fe32453#32, 0xfd95f243#32, 0x76fd93d4#32⟩ = true ∧
    givesRegs .step44 (stepState ⟨0x4497169d#32, 0x0fe32453#32, 0xfd95f243#32, 0x76fd93d4#32⟩ 0x00000000#32) ⟨0x76fd93d4#32, 0x3f55edfd#32, 0x0fe32453#32, 0xfd95f243#32⟩ = true ∧
    givesRegs .step45 (stepState ⟨0x76fd93d4#32, 0x3f55edfd#32, 0x0fe32453#32, 0xfd95f243#32⟩ 0x00000000#32) ⟨0xfd95f243#32, 0x22a31f54#32, 0x3f55edfd#32, 0x0fe32453#32⟩ = true ∧
    givesRegs .step46 (stepState ⟨0xfd95f243#32, 0x22a31f54#32, 0x3f55edfd#32, 0x0fe32453#32⟩ 0x00000000#32) ⟨0x0fe32453#32, 0x68d84ea2#32, 0x22a31f54#32, 0x3f55edfd#32⟩ = true ∧
    givesRegs .step47 (stepState ⟨0x0fe32453#32, 0x68d84ea2#32, 0x22a31f54#32, 0x3f55edfd#32⟩ 0x00000000#32) ⟨0x3f55edfd#32, 0xca7d2dbd#32, 0x68d84ea2#32, 0x22a31f54#32⟩ = true := by decide +kernel

/-- The examples of R208 to R215: the empty message, each step from its registers before to those after. -/
theorem test_steps_round_four_first :
    givesRegs .step48 (stepState ⟨0x3f55edfd#32, 0xca7d2dbd#32, 0x68d84ea2#32, 0x22a31f54#32⟩ 0x00000080#32) ⟨0x22a31f54#32, 0x93aa2577#32, 0xca7d2dbd#32, 0x68d84ea2#32⟩ = true ∧
    givesRegs .step49 (stepState ⟨0x22a31f54#32, 0x93aa2577#32, 0xca7d2dbd#32, 0x68d84ea2#32⟩ 0x00000000#32) ⟨0x68d84ea2#32, 0x1688dc85#32, 0x93aa2577#32, 0xca7d2dbd#32⟩ = true ∧
    givesRegs .step50 (stepState ⟨0x68d84ea2#32, 0x1688dc85#32, 0x93aa2577#32, 0xca7d2dbd#32⟩ 0x00000000#32) ⟨0xca7d2dbd#32, 0xcd85b8cb#32, 0x1688dc85#32, 0x93aa2577#32⟩ = true ∧
    givesRegs .step51 (stepState ⟨0xca7d2dbd#32, 0xcd85b8cb#32, 0x1688dc85#32, 0x93aa2577#32⟩ 0x00000000#32) ⟨0x93aa2577#32, 0x561e0689#32, 0xcd85b8cb#32, 0x1688dc85#32⟩ = true ∧
    givesRegs .step52 (stepState ⟨0x93aa2577#32, 0x561e0689#32, 0xcd85b8cb#32, 0x1688dc85#32⟩ 0x00000000#32) ⟨0x1688dc85#32, 0x5625a114#32, 0x561e0689#32, 0xcd85b8cb#32⟩ = true ∧
    givesRegs .step53 (stepState ⟨0x1688dc85#32, 0x5625a114#32, 0x561e0689#32, 0xcd85b8cb#32⟩ 0x00000000#32) ⟨0xcd85b8cb#32, 0x3450f42b#32, 0x5625a114#32, 0x561e0689#32⟩ = true ∧
    givesRegs .step54 (stepState ⟨0xcd85b8cb#32, 0x3450f42b#32, 0x5625a114#32, 0x561e0689#32⟩ 0x00000000#32) ⟨0x561e0689#32, 0x392ad0d0#32, 0x3450f42b#32, 0x5625a114#32⟩ = true ∧
    givesRegs .step55 (stepState ⟨0x561e0689#32, 0x392ad0d0#32, 0x3450f42b#32, 0x5625a114#32⟩ 0x00000000#32) ⟨0x5625a114#32, 0x1e77fa61#32, 0x392ad0d0#32, 0x3450f42b#32⟩ = true := by decide +kernel

/-- The examples of R216 to R223: the empty message, each step from its registers before to those after. -/
theorem test_steps_round_four_last :
    givesRegs .step56 (stepState ⟨0x5625a114#32, 0x1e77fa61#32, 0x392ad0d0#32, 0x3450f42b#32⟩ 0x00000000#32) ⟨0x3450f42b#32, 0x474a9c8c#32, 0x1e77fa61#32, 0x392ad0d0#32⟩ = true ∧
    givesRegs .step57 (stepState ⟨0x3450f42b#32, 0x474a9c8c#32, 0x1e77fa61#32, 0x392ad0d0#32⟩ 0x00000000#32) ⟨0x392ad0d0#32, 0xdfce00bc#32, 0x474a9c8c#32, 0x1e77fa61#32⟩ = true ∧
    givesRegs .step58 (stepState ⟨0x392ad0d0#32, 0xdfce00bc#32, 0x474a9c8c#32, 0x1e77fa61#32⟩ 0x00000000#32) ⟨0x1e77fa61#32, 0x36594b14#32, 0xdfce00bc#32, 0x474a9c8c#32⟩ = true ∧
    givesRegs .step59 (stepState ⟨0x1e77fa61#32, 0x36594b14#32, 0xdfce00bc#32, 0x474a9c8c#32⟩ 0x00000000#32) ⟨0x474a9c8c#32, 0x30130182#32, 0x36594b14#32, 0xdfce00bc#32⟩ = true ∧
    givesRegs .step60 (stepState ⟨0x474a9c8c#32, 0x30130182#32, 0x36594b14#32, 0xdfce00bc#32⟩ 0x00000000#32) ⟨0xdfce00bc#32, 0x7246fad3#32, 0x30130182#32, 0x36594b14#32⟩ = true ∧
    givesRegs .step61 (stepState ⟨0xdfce00bc#32, 0x7246fad3#32, 0x30130182#32, 0x36594b14#32⟩ 0x00000000#32) ⟨0x36594b14#32, 0x6e10a476#32, 0x7246fad3#32, 0x30130182#32⟩ = true ∧
    givesRegs .step62 (stepState ⟨0x36594b14#32, 0x6e10a476#32, 0x7246fad3#32, 0x30130182#32⟩ 0x00000000#32) ⟨0x30130182#32, 0xff4ea3eb#32, 0x6e10a476#32, 0x7246fad3#32⟩ = true ∧
    givesRegs .step63 (stepState ⟨0x30130182#32, 0xff4ea3eb#32, 0x6e10a476#32, 0x7246fad3#32⟩ 0x00000000#32) ⟨0x7246fad3#32, 0x14e45506#32, 0xff4ea3eb#32, 0x6e10a476#32⟩ = true := by decide +kernel

/-- The single steps of 95_test_vectors.md section 4: wraps, the last step of each round, the last step. -/
theorem test_steps_vectors :
    givesRegs .step0 (vectorState ⟨0x00000000#32, 0x00000000#32, 0x00000000#32, 0x00000000#32⟩) ⟨0x00000000#32, 0xb5523c6b#32, 0x00000000#32, 0x00000000#32⟩ = true ∧
    givesRegs .step0 (vectorState ⟨0xffffffff#32, 0xffffffff#32, 0xffffffff#32, 0xffffffff#32⟩) ⟨0xffffffff#32, 0xb5523b6a#32, 0xffffffff#32, 0xffffffff#32⟩ = true ∧
    givesRegs .step15 (vectorState ⟨0x00000001#32, 0x00000002#32, 0x00000003#32, 0x00000004#32⟩) ⟨0x00000004#32, 0xcdd630c7#32, 0x00000002#32, 0x00000003#32⟩ = true ∧
    givesRegs .step16 (vectorState ⟨0x00000001#32, 0x00000002#32, 0x00000003#32, 0x00000004#32⟩) ⟨0x00000004#32, 0xe3e4cd00#32, 0x00000002#32, 0x00000003#32⟩ = true ∧
    givesRegs .step19 (vectorState ⟨0x80000000#32, 0x80000000#32, 0x80000000#32, 0x80000000#32⟩) ⟨0x80000000#32, 0xfaae9b6c#32, 0x80000000#32, 0x80000000#32⟩ = true ∧
    givesRegs .step31 (vectorState ⟨0x0f0f0f0f#32, 0xf0f0f0f0#32, 0x00ff00ff#32, 0xff00ff00#32⟩) ⟨0xff00ff00#32, 0x7b3a8545#32, 0xf0f0f0f0#32, 0x00ff00ff#32⟩ = true ∧
    givesRegs .step32 (vectorState ⟨0x11111111#32, 0x22222222#32, 0x33333333#32, 0x44444444#32⟩) ⟨0x44444444#32, 0xd87c6cf8#32, 0x22222222#32, 0x33333333#32⟩ = true ∧
    givesRegs .step35 (vectorState ⟨0x11111111#32, 0x22222222#32, 0x33333333#32, 0x44444444#32⟩) ⟨0x44444444#32, 0x625b4ef8#32, 0x22222222#32, 0x33333333#32⟩ = true ∧
    givesRegs .step47 (vectorState ⟨0xdeadbeef#32, 0xcafebabe#32, 0x01234567#32, 0x89abcdef#32⟩) ⟨0x89abcdef#32, 0x9172a3e2#32, 0xcafebabe#32, 0x01234567#32⟩ = true ∧
    givesRegs .step48 (vectorState ⟨0x00000000#32, 0x00000000#32, 0x00000000#32, 0x00000000#32⟩) ⟨0x00000000#32, 0x0a4890fd#32, 0x00000000#32, 0x00000000#32⟩ = true ∧
    givesRegs .step63 (vectorState ⟨0xdeadbeef#32, 0xcafebabe#32, 0x01234567#32, 0x89abcdef#32⟩) ⟨0x89abcdef#32, 0x37591e31#32, 0xcafebabe#32, 0x01234567#32⟩ = true ∧
    givesRegs .step63 (vectorState ⟨0xffffffff#32, 0xffffffff#32, 0xffffffff#32, 0xffffffff#32⟩) ⟨0xffffffff#32, 0x933e91fa#32, 0xffffffff#32, 0xffffffff#32⟩ = true := by decide +kernel

/-- R256: a step goes on to the next; step 63 ends the block. -/
theorem test_step_sequencing :
    leads (exec .step62 (sample 7#4)) (fun t => t.t == some 63#6 && t.phase == 7#4 && t.st == (sample 7#4).st) = true ∧
    leads (exec .step63 (sample 7#4)) (fun t => t.t == some 0#6 && t.phase == 8#4) = true := by decide

/-- 42_compression.md section 1, the last two rows of the table of corner operands. -/
theorem test_mix_values :
    mixF 0x12345678#32 0x9abcdef0#32 0x0f1e2d3c#32 = 0x1f3e7f74#32 ∧ mixG 0x12345678#32 0x9abcdef0#32 0x0f1e2d3c#32 = 0x92b4d6f8#32 ∧
    mixH 0x12345678#32 0x9abcdef0#32 0x0f1e2d3c#32 = 0x8796a5b4#32 ∧ mixI 0x12345678#32 0x9abcdef0#32 0x0f1e2d3c#32 = 0x6849080b#32 ∧
    mixF 0xefcdab89#32 0x98badcfe#32 0x10325476#32 = 0x98badcfe#32 ∧ mixI 0xefcdab89#32 0x98badcfe#32 0x10325476#32 = 0x77777777#32 := by
  decide

/-- X1 (95_test_vectors.md section 6): absent input from reset; STATUS is 0x1F. -/
theorem test_start_absent : leads (exec .start { State.reset with present := some false })
    (fun t => t.status == 0x1f#6 && t == { State.reset with present := some false, phase := 15#4, errcode := 1#2 }) = true := by
  decide

/-- X2, R240: from ERR the empty message is accepted, ERRCODE cleared, `pc = (1, 0, 0, 0)`. -/
theorem test_start_accepted : leads
    (exec .start { State.reset with present := some true, n := some 0, phase := 15#4, errcode := 1#2 })
    (fun t => t.phase == 1#4 && t.errcode == 0#2 && t.idx == some 0 && t.j == some 0 && t.t == some 0#6) = true := by decide

/-- R35: NOP has no effect. -/
theorem test_nop : exec .nop (sample 5#4) = .next (sample 5#4) := rfl

/-- R321: OUT is readable in DONE only. -/
theorem test_out_reads :
    leads (hostAct (.readOut 2) { sample 14#4 with out := [(2, 0x8c#8)] }) (fun t => t.seen == [.out 2 0x8c#8]) = true ∧
    leads (hostAct (.readOut 2) { sample 10#4 with out := [(2, 0x8c#8)] }) (fun _ => true) = false := by decide

/-- E1: the digest of the empty message, rendered (R262, R270). -/
theorem test_digest_empty : hexRender (digestBytes []) = "d41d8cd98f00b204e9800998ecf8427e".toList := by decide +kernel

/-- E2: the digest of "abc". -/
theorem test_digest_abc :
    hexRender (digestBytes [0x61#8, 0x62#8, 0x63#8]) = "900150983cd24fb0d6963f7d28e17f72".toList := by decide +kernel

/-- R261: the sequencer's walk for `N = 5` takes 96 micro-operations; R92: DIGEST has as many. -/
theorem test_run_length : runLength 5 = 96 ∧ runLength 0 = 89 ∧ (runTrace 5).length = 96 := by decide

/-- The host's way to run one row: the placed word is the next thing that runs. -/
theorem test_withFetchWord :
    leads (step (State.reset.withFetchWord 16 0x180)) (fun t => t.phase == 7#4 && t.wr == initialState.valued) = true ∧
    leads (step (State.reset.withFetchWord 8 1)) (fun t => t.phase == 1#4) = true := by decide

/-! ## Witnesses: the hypotheses of the statements are met -/

/-- O5: outside P_STEP, and in P_STEP at both ends of `t`; with and without a host action to come. -/
theorem witness_engineStepRunsDecoded :
    ((sample 1#4).phase ≠ 7#4 ∧ 0x040#10 = (sample 1#4).phase ++ 0#6 ∧ decodeUop 0x040#10 = .ok .init ∧
      (sample 1#4).pending = []) ∧
    ((sample 7#4).phase = 7#4 ∧ (sample 7#4).t = some 0#6 ∧ 0x1c0#10 = 7#4 ++ 0#6 ∧ decodeUop 0x1c0#10 = .ok .step0) ∧
    ({ sample 7#4 with t := some 63#6 }.t = some 63#6 ∧ 0x1ff#10 = 7#4 ++ 63#6 ∧ decodeUop 0x1ff#10 = .ok .step63) ∧
    { sample 1#4 with pending := [⟨0 + 1, .readStatus⟩] }.pending = [⟨0 + 1, .readStatus⟩] :=
  ⟨⟨by decide, rfl, rfl, rfl⟩, ⟨rfl, rfl, rfl, rfl⟩, ⟨rfl, rfl, rfl⟩, rfl⟩

/-- O6. -/
theorem witness_commandStepRunsDecoded :
    { sample 0#4 with pending := [⟨0, .command 1#2⟩] }.pending = ⟨0, .command 1#2⟩ :: [] ∧ decodeCmd 1#2 = .ok .start ∧
    decodeCmd 0#2 = .ok .nop := ⟨rfl, rfl, rfl⟩

/-- O7: one state for each phase. -/
theorem witness_phaseSelectsInstruction : ∀ p : BitVec 4, (sample p).pending = [] ∧ (sample p).phase = p ∧
    (sample p).t = some 0#6 := by decide

/-- O8: a quiescent state, and host actions that answer. -/
theorem witness_quiescentEngineStays : (sample 14#4).phase = 14#4 ∧ (sample 15#4).phase = 15#4 ∧ State.reset.phase = 0#4 ∧
    (∃ t, hostAct .readStatus (sample 5#4) = .next t) ∧ (∃ t, hostAct (.writeN 0) (sample 14#4) = .next t) ∧
    ∃ t, hostAct (.writeIn 0 1#8) (sample 14#4) = .next t := ⟨rfl, rfl, rfl, ⟨_, rfl⟩, ⟨_, rfl⟩, ⟨_, rfl⟩⟩

/-- O9, O10: the first byte, and the last (`idx + 1 = N`); and an unwritten byte. -/
theorem witness_packb :
    ((sample 2#4).idx = some 0 ∧ (sample 2#4).n = some 3 ∧ Memory.read (sample 2#4).inp 0 = some 0x61#8 ∧
      Memory.read (sample 2#4).w (8 * 0 / 32) = some 0#32 ∧ byteLane 0#32 (3 - 0 % 4) = 0#8) ∧
    (let s := { sample 2#4 with idx := some 2 }
     s.idx = some 2 ∧ s.n = some 3 ∧ Memory.read s.inp 2 = some 0x63#8 ∧ Memory.read s.w (8 * 2 / 32) = some 0#32) ∧
    (let s := { sample 2#4 with idx := some 3 }
     s.idx = some 3 ∧ Memory.read s.inp 3 = none) ∧ ∃ t, exec .packb (sample 2#4) = .next t :=
  ⟨by decide, by decide, by decide, ⟨_, rfl⟩⟩

/-- O11: a word that is not the last, and the last. -/
theorem witness_bswap :
    (let s := { sample 3#4 with nwm := some 2 }
     s.idx = some 0 ∧ s.nwm = some 2 ∧ Memory.read s.w 0 = some 0#32) ∧
    (sample 3#4).idx = some 0 ∧ (sample 3#4).nwm = some 1 ∧ Memory.read (sample 3#4).w 0 = some 0#32 := by decide

/-- O12: bytes 0 and 15. -/
theorem witness_unpkb :
    ((sample 10#4).idx = some 0 ∧ (sample 10#4).q.get? (8 * 0 / 32) = some (some 0x90015098#32)) ∧
    (let s := { sample 10#4 with idx := some 15 }
     s.idx = some 15 ∧ s.q.get? (8 * 15 / 32) = some (some 0x28e17f72#32)) := by decide

/-- O13, O14: lanes 0 and 3; lengths that are and are not multiples of 4. -/
theorem witness_codec : byteLane (bswap32 0x11223344#32) 0 = 0x11#8 ∧ byteLane (bswap32 0x11223344#32) 3 = 0x44#8 ∧
    ([1#8, 2#8, 3#8, 4#8] : List Byte).length % 4 = 0 ∧ ([] : List Byte).length % 4 = 0 ∧
    wordsToBytes (bytesToWords [1#8, 2#8, 3#8]) = [1#8, 2#8, 3#8, 0#8] := by decide

/-- O15: `LEN = 24`, and the four values of `L mod 32`. -/
theorem witness_padbit : (sample 4#4).len = some 24#64 ∧ Memory.read (sample 4#4).w ((24#64).toNat / 32) = some 0#32 ∧
    0 % 8 = 0 ∧ 8 % 8 = 0 ∧ 16 % 8 = 0 ∧ 24 % 8 = 0 := by decide

/-- O16: the smallest padded message, and the lower end of the clause `2 <= nw`. -/
theorem witness_padlen :
    ((sample 5#4).len = some 24#64 ∧ (sample 5#4).nw = some 16 ∧ 2 ≤ 16 ∧ (∃ x, Memory.read (sample 5#4).w (16 - 2) = some x) ∧
      ∃ x, Memory.read (sample 5#4).w (16 - 1) = some x) ∧
    (let s := { sample 5#4 with nw := some 2 }
     s.nw = some 2 ∧ (∃ x, Memory.read s.w (2 - 2) = some x) ∧ ∃ x, Memory.read s.w (2 - 1) = some x) :=
  ⟨⟨rfl, rfl, by decide, ⟨_, rfl⟩, ⟨_, rfl⟩⟩, rfl, ⟨_, rfl⟩, ⟨_, rfl⟩⟩

/-- O17, O18: the sizes at the block boundary (95_test_vectors.md section 3), the empty message, and word indices at both
ends and at the terminator. -/
theorem witness_padding_sizes : 0 ≤ Config.maxBytes ∧ 8 * 0 + 65 ≤ 512 * 1 ∧ paddedBlocks 55 = 1 ∧ paddedBlocks 56 = 2 ∧
    paddedBlocks 119 = 2 ∧ paddedBlocks 120 = 3 ∧ 0 < paddedWords ([] : List Byte).length ∧
    15 < paddedWords ([] : List Byte).length := ⟨Nat.zero_le _, by decide, rfl, rfl, rfl, rfl, by decide, by decide⟩

/-- O19: the empty message, which every instance accepts; a message of one byte, on an instance that accepts it. -/
theorem witness_init : ({ sample 1#4 with n := some 0 }.n = some 0 ∧ 0 ≤ Config.maxBytes) ∧
    (1 ≤ Config.maxBytes → ∃ t, exec .init { sample 1#4 with n := some 1 } = .next t) := by
  refine ⟨⟨rfl, Nat.zero_le _⟩, fun h => ⟨afterInit 1 (initData 1 { sample 1#4 with n := some 1 }), ?_⟩⟩
  show execInit _ = _
  simp [execInit, need, fits, h]

/-- O20, O21: a block that is not the last, and the last. -/
theorem witness_loadw_fold :
    (sample 6#4).st = ⟨some 0x67452301#32, some 0xefcdab89#32, some 0x98badcfe#32, some 0x10325476#32⟩ ∧
    (sample 8#4).wr = ⟨some 1#32, some 2#32, some 3#32, some 4#32⟩ ∧ (sample 8#4).j = some 0 ∧ (sample 8#4).nb = some 1 ∧
    { sample 8#4 with nb := some 2 }.nb = some 2 ∧ (∃ t, exec .init { sample 1#4 with n := some 0 } = .next t) ∧
    ∃ t, exec .loadw (sample 6#4) = .next t := ⟨rfl, rfl, rfl, rfl, rfl, ⟨_, rfl⟩, ⟨_, rfl⟩⟩

/-- O22: registers 0 and 3. -/
theorem witness_fswap :
    ((sample 9#4).idx = some 0 ∧ (sample 9#4).st.get? 0 = some (some 0x67452301#32)) ∧
    (let s := { sample 9#4 with idx := some 3 }
     s.idx = some 3 ∧ s.st.get? 3 = some (some 0x10325476#32)) := by decide

/-- O23 to O31: every word of the block holds a value, for every step. -/
theorem witness_steps : (sample 7#4).wr = ⟨some 1#32, some 2#32, some 3#32, some 4#32⟩ ∧ (sample 7#4).j = some 0 ∧
    ∀ k < 16, Memory.read (sample 7#4).w (16 * 0 + k) = some 0#32 := by decide

/-- O32 to O34: bits 0 and 31, the ends of the rounds, and rotations by 1 and 31. -/
theorem witness_operands : (0 < 32 ∧ 31 < 32) ∧ (15 / 16 = 0 ∧ 16 / 16 = 1 ∧ 47 / 16 = 2 ∧ 63 / 16 = 3) ∧
    rotl32 0x80000001#32 1 = 3#32 ∧ rotl32 0x80000001#32 31 = 0xc0000000#32 := by decide

/-- O35 to O37: every clause of START. -/
theorem witness_start :
    (∀ p ∈ [0#4, 14#4, 15#4], (sample p).phase = p ∧ (sample p).present = some true) ∧
    { sample 0#4 with n := some 0 }.n = some 0 ∧ 0 ≤ Config.maxBytes ∧
    { sample 0#4 with n := some (Config.maxBytes + 1) }.n = some (Config.maxBytes + 1) ∧
    Config.maxBytes < Config.maxBytes + 1 ∧ { sample 0#4 with n := none }.n = none ∧
    { sample 0#4 with present := some false }.present = some false ∧ { sample 0#4 with present := none }.present = none ∧
    (1 ≤ (sample 1#4).phase.toNat ∧ (sample 10#4).phase.toNat ≤ 10) ∧
    (∃ t, exec .start { sample 0#4 with present := some false } = .next t ∧ t.errcode = 1#2 ∧ t.phase = 15#4) :=
  ⟨by decide, rfl, Nat.zero_le _, rfl, Nat.lt_succ_self _, rfl, rfl, rfl, by decide, ⟨_, rfl, rfl, rfl⟩⟩

/-- O38, O39, O41: busy at both ends; a cell of IN that exists on every instance; ports with and without a value; a byte of
OUT in DONE, and a phase that is not DONE. -/
theorem witness_hostPorts :
    (1 ≤ (sample 1#4).phase.toNat ∧ (sample 1#4).phase.toNat ≤ 10) ∧
    (1 ≤ (sample 10#4).phase.toNat ∧ (sample 10#4).phase.toNat ≤ 10) ∧
    (∃ x, Memory.read (sample 14#4).inp 0 = some x) ∧ (sample 14#4).n = some 3 ∧ State.reset.n = none ∧
    (sample 14#4).present = some true ∧ State.reset.present = none ∧
    Memory.read { sample 14#4 with out := [(15, 1#8)] }.out 15 = some 1#8 ∧ (sample 13#4).phase ≠ 14#4 ∧
    (sample 15#4).phase ≠ 14#4 :=
  ⟨by decide, by decide, ⟨_, rfl⟩, rfl, rfl, rfl, rfl, rfl, by decide, by decide⟩

/-- O43 to O46: each instruction answers a next state somewhere, with the addresses the frames name. -/
theorem witness_frames : (∃ t, exec .packb (sample 2#4) = .next t) ∧ (∃ t, exec .bswap (sample 3#4) = .next t) ∧
    (∃ t, exec .padbit (sample 4#4) = .next t) ∧ (∃ t, exec .padlen (sample 5#4) = .next t) ∧
    (∃ t, exec .loadw (sample 6#4) = .next t) ∧ (∃ t, exec (stepInstr 0#6) (sample 7#4) = .next t) ∧
    (∃ t, exec (stepInstr 63#6) (sample 7#4) = .next t) ∧ (∃ t, exec .fold (sample 8#4) = .next t) ∧
    (∃ t, exec .fswap (sample 9#4) = .next t) ∧ (∃ t, exec .unpkb (sample 10#4) = .next t) ∧
    (∃ t, exec .init { sample 1#4 with n := some 0 } = .next t) ∧
    (∃ t, exec .start { sample 0#4 with n := some 0 } = .next t) ∧
    (∃ t, exec .start { sample 0#4 with present := some false } = .next t) ∧ ∃ t, exec .nop (sample 0#4) = .next t :=
  ⟨⟨_, rfl⟩, ⟨_, rfl⟩, ⟨_, rfl⟩, ⟨_, rfl⟩, ⟨_, rfl⟩, ⟨_, rfl⟩, ⟨_, rfl⟩, ⟨_, rfl⟩, ⟨_, rfl⟩, ⟨_, rfl⟩, ⟨_, rfl⟩, ⟨_, rfl⟩,
    ⟨_, rfl⟩, ⟨_, rfl⟩⟩

/-- O47: each register and space does change under an instruction that may write it. -/
theorem witness_writers :
    leads (exec .loadw (sample 6#4)) (fun t => t.wr != (sample 6#4).wr) = true ∧
    leads (exec .fold (sample 8#4)) (fun t => t.st != (sample 8#4).st) = true ∧
    leads (exec .fswap (sample 9#4)) (fun t => t.q != (sample 9#4).q) = true ∧
    leads (exec .init { sample 1#4 with n := some 0 }) (fun t => t.len != (sample 1#4).len) = true ∧
    leads (exec .padlen (sample 5#4)) (fun t => t.w != (sample 5#4).w) = true ∧
    leads (exec .unpkb (sample 10#4)) (fun t => t.out != (sample 10#4).out) = true ∧
    leads (exec .start { sample 0#4 with present := some false }) (fun t => t.errcode != 0#2) = true := by decide

/-- O48: after reset nearly nothing holds a value; and a valued counter may name a cell without one. -/
theorem witness_valueless :
    (let r := State.reset
     r.n = none ∧ r.idx = none ∧ r.nwm = none ∧ r.len = none ∧ r.nw = none ∧ r.j = none ∧ r.nb = none ∧ r.present = none ∧
      r.st.get? 0 = some none ∧ r.wr.get? 3 = some none ∧ r.phase = 0#4) ∧
    (let s := { State.reset with idx := some 0, len := some 0#64, j := some 0 }
     Memory.read s.inp 0 = none ∧ Memory.read s.w (8 * 0 / 32) = none ∧ Memory.read s.w ((0#64).toNat / 32) = none ∧
      (∀ k : BitVec 6, Memory.read s.w (16 * 0 + wordIndex k.toNat) = none) ∧ s.st.get? 0 = some none ∧
      s.q.get? (8 * 0 / 32) = some none) := by decide

/-- O48, the model's own stops. -/
theorem witness_stops : { sample 1#4 with n := some (Config.maxBytes + 1) }.n = some (Config.maxBytes + 1) ∧
    Config.maxBytes < Config.maxBytes + 1 ∧ { sample 5#4 with nw := some 1 }.nw = some 1 ∧
    { sample 9#4 with idx := some 4 }.idx = some 4 ∧ { sample 10#4 with idx := some 16 }.idx = some 16 ∧
    (sample 11#4).phase = 11#4 ∧ (sample 13#4).phase = 13#4 := ⟨rfl, Nat.lt_succ_self _, rfl, rfl, rfl, rfl, rfl⟩

/-- A quiescent legal state in which a host is about to start the empty message. -/
def legalQuiescent : State := { State.reset with n := some 0, present := some true, pending := [⟨0, .command 1#2⟩] }

/-- A busy legal state: PADBIT of the empty message. -/
def legalBusy : State :=
  { State.reset with
    st := initialState.valued
    len := some (BitVec.ofNat 64 (8 * 0))
    nwm := some 0
    nw := some 16
    nb := some 1
    phase := 4#4
    idx := some 0
    j := some 0
    t := some 0#6
    n := some 0
    present := some true
    w := wordsOf 16 0#32 }

/-- The word memory of the padded empty message lies inside every instance's W. -/
theorem wordsOf_within : Memory.within wcap (wordsOf 16 0#32) = true := by
  have h : 16 ≤ wcap := by unfold wcap paddedWords; omega
  simp only [Memory.within, wordsOf, List.all_map, List.all_eq_true, List.mem_range, Function.comp, decide_eq_true_eq]
  intro i hi
  omega

/-- O50: a quiescent legal state whose step (START) answers. -/
theorem witness_legalQuiescent : LegalState legalQuiescent ∧ ∃ t, step legalQuiescent = .next t := by
  refine ⟨⟨⟨⟨rfl, rfl⟩, ⟨rfl, rfl⟩, rfl, rfl⟩, ⟨rfl, rfl⟩, ?_, ?_, ?_⟩, ⟨_, rfl⟩⟩
  · intro h; cases h
  · rintro ⟨h, -⟩; cases h
  · intro h; cases h

/-- O50, O51: a busy legal state whose message is loaded. -/
theorem witness_legalBusy : LegalState legalBusy ∧ 1 ≤ legalBusy.phase.toNat ∧ legalBusy.phase.toNat ≤ 10 ∧
    legalBusy.n = some 0 ∧ messageLoaded legalBusy 0 ∧ ∃ t, step legalBusy = .next t := by
  have hw : ∀ i < paddedWords 0, (Memory.read legalBusy.w i).isSome = true := by decide
  refine ⟨⟨⟨⟨rfl, rfl⟩, ⟨rfl, wordsOf_within⟩, rfl, rfl⟩, ⟨rfl, rfl⟩, ?_, ?_, ?_⟩, by decide, by decide, rfl,
    fun i hi => absurd hi (Nat.not_lt_zero i), ⟨_, rfl⟩⟩
  · intro h; cases h
  · intro _
    refine ⟨0, ⟨rfl, Nat.zero_le _, rfl, ⟨_, rfl⟩, ⟨_, rfl⟩, ⟨_, rfl⟩⟩,
      ⟨rfl, rfl, rfl, rfl, ⟨initialState, rfl⟩, fun i hi => Option.isSome_iff_exists.1 (hw i hi)⟩, ?_, ?_, ?_, ?_, ?_, ?_, ?_⟩
    · intro h; cases h
    · intro h; cases h
    · rintro (h | h | h) <;> cases h
    · rintro (h | h) <;> cases h
    · intro h; cases h
    · intro h; cases h
    · exact fun _ _ => rfl
  · intro h; cases h

/-- O52, O53, O56 to O58: the empty message has just been started; and "abc", on an instance that accepts it. -/
theorem witness_started : Started { State.reset with phase := 1#4, n := some 0 } [] ∧
    (3 ≤ Config.maxBytes → Started (sample 1#4) [0x61#8, 0x62#8, 0x63#8]) := by
  refine ⟨⟨rfl, rfl, Nat.zero_le _, fun i hi => absurd hi (Nat.not_lt_zero i), fun e he => by simp [State.reset] at he⟩,
    fun h => ⟨rfl, rfl, h, ?_, fun e he => by simp [sample, State.reset] at he⟩⟩
  show ∀ i < 3, Memory.read (sample 1#4).inp i = some (byteOr0 [0x61#8, 0x62#8, 0x63#8] i)
  decide

/-- O54, O55: a block that is the last and one that is not; the State about to be serialised. -/
theorem witness_stretches :
    ((sample 6#4).st = initialState.valued ∧ (∀ i < 16, Memory.read (sample 6#4).w (16 * 0 + i) = some 0#32) ∧
      (sample 6#4).j = some 0 ∧ (sample 6#4).nb = some 1 ∧ { sample 6#4 with nb := some 2 }.nb = some 2) ∧
    (sample 9#4).idx = some 0 ∧ undisturbed (sample 6#4) 66 ∧ undisturbed (sample 9#4) 20 :=
  ⟨by decide, rfl, fun e he => by simp [sample, State.reset] at he, fun e he => by simp [sample, State.reset] at he⟩

/-- O57: the first and the last micro-operation of the empty message's run (95_test_vectors.md P1), and the first after
STEP63. -/
theorem witness_trace : (runTrace 0)[0]? = some .init ∧ (runTrace 0)[1]? = some .padbit ∧ (runTrace 0)[67]? = some .step63 ∧
    (runTrace 0)[68]? = some .fold ∧ (runTrace 0)[88]? = some .unpkb ∧ (runTrace 0)[89]? = none := by decide

/-- O59: from reset a host presents the empty message; and, on an instance that accepts it, a message of one byte. -/
theorem witness_boot : { State.reset with pending := bootActions [] }.phase = 0#4 ∧
    ([] : List Byte).length ≤ Config.maxBytes ∧
    (1 ≤ Config.maxBytes → ([0x61#8] : List Byte).length ≤ Config.maxBytes) ∧
    (bootActions [0x61#8]).map (·.act) = [.writeIn 0 0x61#8, .writeN 1, .writePresent true, .command 1#2] :=
  ⟨rfl, Nat.zero_le _, fun h => h, by decide⟩

/-- O60: the rendering at the ends of a byte. -/
theorem witness_hex : hexRender [0x00#8, 0xff#8, 0x1d#8] = ['0', '0', 'f', 'f', '1', 'd'] ∧
    hexRead ['f', 'f', '1', 'd'] = some [0xff#8, 0x1d#8] := by decide

end Sys2Proof.Tests
end

section
/-! PROOF. O34: how `rotl32` moves bits, and that the opposite rotation undoes it (R9, R147). -/

namespace Sys2Proof.Machine

/-- Bit `n` arrives by the left shift while `n + s < 32`, and by the right shift once it wraps around. -/
theorem getLsbD_rotl32 (x : Word) {s n : Nat} (hs : 1 ≤ s) (hs' : s ≤ 31) (hn : n < 32) :
    (rotl32 x s).getLsbD ((n + s) % 32) = x.getLsbD n := by
  simp only [rotl32, BitVec.getLsbD_or, BitVec.getLsbD_shiftLeft, BitVec.getLsbD_ushiftRight]
  by_cases hwrap : n + s < 32
  · have hright : 32 ≤ 32 - s + (n + s) := by omega
    rw [Nat.mod_eq_of_lt hwrap, BitVec.getLsbD_of_ge x _ hright]
    simp [hwrap]
  · have hbit : (n + s) % 32 = n + s - 32 := by omega
    have hleft : n + s - 32 < s := by omega
    have hright : 32 - s + (n + s - 32) = n := by omega
    rw [hbit, hright]
    simp [hleft]

/-- Rotating all the way round, in two parts, moves every bit back to its place. -/
theorem rotl32_rotl32_sub (x : Word) {s : Nat} (hs : 1 ≤ s) (hs' : s ≤ 31) : rotl32 (rotl32 x s) (32 - s) = x := by
  apply BitVec.eq_of_getLsbD_eq
  intro n hn
  have hround : ((n + s) % 32 + (32 - s)) % 32 = n := by omega
  calc (rotl32 (rotl32 x s) (32 - s)).getLsbD n
      = (rotl32 (rotl32 x s) (32 - s)).getLsbD (((n + s) % 32 + (32 - s)) % 32) := by rw [hround]
    _ = (rotl32 x s).getLsbD ((n + s) % 32) := getLsbD_rotl32 _ (by omega) (by omega) (Nat.mod_lt _ (by omega))
    _ = x.getLsbD n := getLsbD_rotl32 x hs hs' hn

/-- Settles O34: each bit by the half of the rotation it arrives from; the inverse by following a bit twice. -/
theorem rotateMovesBits : Obligations.RotateMovesBits := fun x _ hs hs' =>
  ⟨fun _ hn => getLsbD_rotl32 x hs hs' hn, rotl32_rotl32_sub x hs hs'⟩

end Sys2Proof.Machine
end

section
/-! PROOF. O48: where an instruction stops. But for INIT and START no meaning is ever refused, so one that does not go on
faults; and when each goes on is said once, by its inversion lemma `exec…_eq_next` (R11, R21, R61). -/

namespace Sys2Proof.Machine

variable {s : State}

/-- What neither goes on nor is refused faults. -/
theorem exists_fault {r : Result} (hnext : ∀ t, r ≠ .next t) (hrefused : ∀ e, r ≠ .refused e) : ∃ f, r = .fault f := by
  cases r with
  | next t => exact absurd rfl (hnext t)
  | fault f => exact ⟨f, rfl⟩
  | refused e => exact absurd rfl (hrefused e)

/-- Each of four valued registers holds a value. -/
theorem Quad.get?_valued_ne_none (v : Quad Word) (i : Nat) : v.valued.get? i ≠ some Option.none := by
  simp [Quad.get?_valued]

/-! ### The meanings that are never refused -/

theorem execPackb_ne_refused (e : Refusal) : execPackb s ≠ .refused e :=
  need_ne_refused fun _ => loadCell_ne_refused fun _ => loadCell_ne_refused fun _ => need_ne_refused fun _ =>
    storeCell_ne_refused fun _ => nofun

theorem execBswap_ne_refused (e : Refusal) : execBswap s ≠ .refused e :=
  need_ne_refused fun _ => loadCell_ne_refused fun _ => need_ne_refused fun _ => storeCell_ne_refused fun _ => nofun

theorem execPadbit_ne_refused (e : Refusal) : execPadbit s ≠ .refused e :=
  need_ne_refused fun _ => loadCell_ne_refused fun _ => storeCell_ne_refused fun _ => nofun

theorem execPadlen_ne_refused (e : Refusal) : execPadlen s ≠ .refused e := by
  refine need_ne_refused fun len => need_ne_refused fun nw => ?_
  split_ifs
  · nofun
  · exact storeCell_ne_refused fun _ => storeCell_ne_refused fun _ => nofun

theorem execLoadw_ne_refused (e : Refusal) : execLoadw s ≠ .refused e := needQuad_ne_refused fun _ => nofun

theorem execStepT_ne_refused (t : BitVec 6) (e : Refusal) : execStepT t s ≠ .refused e :=
  needQuad_ne_refused fun _ => need_ne_refused fun _ => loadCell_ne_refused fun _ => nofun

theorem execFold_ne_refused (e : Refusal) : execFold s ≠ .refused e :=
  needQuad_ne_refused fun _ => needQuad_ne_refused fun _ => need_ne_refused fun _ => need_ne_refused fun _ => nofun

theorem execFswap_ne_refused (e : Refusal) : execFswap s ≠ .refused e :=
  need_ne_refused fun _ => needReg_ne_refused fun _ => nofun

theorem execUnpkb_ne_refused (e : Refusal) : execUnpkb s ≠ .refused e :=
  need_ne_refused fun _ => needReg_ne_refused fun _ => storeCell_ne_refused fun _ => nofun

/-! ### A read of no value faults -/

theorem execInit_faults (h : s.n = none) : ∃ f, execInit s = .fault f := ⟨.noValue .n, by rw [execInit, h, need_none]⟩

theorem execPackb_faults (h : s.idx = none ∨ s.n = none ∨ ∃ i, s.idx = some i ∧
    (Memory.read s.inp i = none ∨ Memory.read s.w (codecWord i) = none)) : ∃ f, execPackb s = .fault f := by
  refine exists_fault (fun t ht => ?_) execPackb_ne_refused
  obtain ⟨i, b, x, n, hi, hb, hx, hn, -⟩ := execPackb_eq_next.1 ht
  simp [hi, hb, hx, hn] at h

theorem execBswap_faults (h : s.idx = none ∨ s.nwm = none ∨ ∃ i, s.idx = some i ∧ Memory.read s.w i = none) :
    ∃ f, execBswap s = .fault f := by
  refine exists_fault (fun t ht => ?_) execBswap_ne_refused
  obtain ⟨i, x, nwm, hi, hx, hnwm, -⟩ := execBswap_eq_next.1 ht
  simp [hi, hx, hnwm] at h

theorem execPadbit_faults (h : s.len = none ∨ ∃ l, s.len = some l ∧ Memory.read s.w (padWord l) = none) :
    ∃ f, execPadbit s = .fault f := by
  refine exists_fault (fun t ht => ?_) execPadbit_ne_refused
  obtain ⟨l, x, hl, hx, -⟩ := execPadbit_eq_next.1 ht
  simp [hl, hx] at h

/-- PADLEN needs both length registers and, for its two cells to exist, an NW of at least 2. -/
theorem execPadlen_faults (h : s.len = none ∨ s.nw = none ∨ ∃ nw, s.nw = some nw ∧ nw < 2) :
    ∃ f, execPadlen s = .fault f := by
  refine exists_fault (fun t ht => ?_) execPadlen_ne_refused
  obtain ⟨l, nw, hl, hnw, hge, -⟩ := execPadlen_eq_next.1 ht
  have hle : ¬ nw ≤ 1 := by omega
  simp [hl, hnw, hle] at h

theorem execLoadw_faults (h : ∃ r < 4, s.st.get? r = some none) : ∃ f, execLoadw s = .fault f := by
  refine exists_fault (fun t ht => ?_) execLoadw_ne_refused
  obtain ⟨v, hv, -⟩ := execLoadw_eq_next.1 ht
  simp [hv, Quad.get?_valued_ne_none] at h

theorem execStepT_faults (k : BitVec 6) (h : (∃ r < 4, s.wr.get? r = some none) ∨ s.j = none ∨
    ∃ j, s.j = some j ∧ Memory.read s.w (stepWord j k.toNat) = none) : ∃ f, execStepT k s = .fault f := by
  refine exists_fault (fun t ht => ?_) (execStepT_ne_refused k)
  obtain ⟨v, j, m, hv, hj, hm, -⟩ := execStepT_eq_next.1 ht
  simp [hv, hj, hm, Quad.get?_valued_ne_none] at h

theorem execFold_faults (h : (∃ r < 4, s.st.get? r = some none ∨ s.wr.get? r = some none) ∨ s.j = none ∨ s.nb = none) :
    ∃ f, execFold s = .fault f := by
  refine exists_fault (fun t ht => ?_) execFold_ne_refused
  obtain ⟨v, r, j, nb, hv, hr, hj, hnb, -⟩ := execFold_eq_next.1 ht
  simp [hv, hr, hj, hnb, Quad.get?_valued_ne_none] at h

/-- FSWAP needs `idx` and a value in `ST[idx]`, which is one of four registers. -/
theorem execFswap_faults (h : s.idx = none ∨ ∃ i, s.idx = some i ∧ (s.st.get? i = some none ∨ 3 < i)) :
    ∃ f, execFswap s = .fault f := by
  refine exists_fault (fun t ht => ?_) execFswap_ne_refused
  obtain ⟨i, x, hi, hx, -⟩ := execFswap_eq_next.1 ht
  have hlt : i < 4 := (Quad.get?_isSome s.st).1 ⟨_, hx⟩
  have hle : ¬ 3 < i := by omega
  simp [hi, hx, hle] at h

/-- UNPKB needs `idx` and a value in the register that holds byte `idx`, which is one of four. -/
theorem execUnpkb_faults (h : s.idx = none ∨ ∃ i, s.idx = some i ∧ (s.q.get? (codecWord i) = some none ∨ 15 < i)) :
    ∃ f, execUnpkb s = .fault f := by
  refine exists_fault (fun t ht => ?_) execUnpkb_ne_refused
  obtain ⟨i, x, hi, hx, -⟩ := execUnpkb_eq_next.1 ht
  have hlt : codecWord i < 4 := (Quad.get?_isSome s.q).1 ⟨_, hx⟩
  have hle : ¬ 15 < i := by rw [codecWord_eq] at hlt; omega
  simp [hi, hx, hle] at h

/-! ### START and INIT -/

/-- START on a quiescent engine reads PRESENT first (R34, R284). -/
theorem execStart_noPresent (hq : quiescent s.phase = true) (hp : s.present = none) :
    execStart s = .fault (.noValue .present) := by
  rw [execStart, if_pos hq, hp, need_none]

/-- START is refused in every phase that is not quiescent (R320). -/
theorem execStart_notQuiescent (hq : quiescent s.phase = false) : execStart s = .refused .startNotQuiescent := by
  simp [execStart, hq]

/-- INIT of a message above MAXBYTES is refused (log entry 18). -/
theorem execInit_tooLong {n : Nat} (hn : s.n = some n) (hlong : Config.maxBytes < n) :
    execInit s = .refused .messageTooLong := by
  have hfits : ¬ fits n = true := by rw [fits_iff]; omega
  rw [execInit, hn, need_some, if_neg hfits]

/-- Settles O48: each clause is the fault or refusal of that instruction's meaning. -/
theorem readsThatStop : Obligations.ReadsThatStop := by
  intro s
  refine ⟨execInit_faults, execPackb_faults, execBswap_faults, execPadbit_faults, fun h => execPadlen_faults ?padlen,
    execLoadw_faults, fun k h => ?step, execFold_faults, fun h => execFswap_faults ?fswap,
    fun h => execUnpkb_faults ?unpkb, fun hq => execStart_noPresent ((quiescent_iff _).2 hq),
    fun _ => execInit_tooLong, fun _ nw _ hnw hlt => execPadlen_faults (.inr (.inr ⟨nw, hnw, hlt⟩)),
    fun i hi hlt => execFswap_faults (.inr ⟨i, hi, .inr hlt⟩),
    fun i hi hlt => execUnpkb_faults (.inr ⟨i, hi, .inr hlt⟩), fun hp => execStart_notQuiescent ?reserved⟩
  case padlen => exact h.imp_right .inl
  case step =>
    rw [exec_stepInstr]
    exact execStepT_faults k h
  case fswap => exact h.imp_right fun ⟨i, hi, hx⟩ => ⟨i, hi, .inl hx⟩
  case unpkb => exact h.imp_right fun ⟨i, hi, hx⟩ => ⟨i, hi, .inl hx⟩
  case reserved => rcases hp with hp | hp | hp <;> rw [hp] <;> rfl

end Sys2Proof.Machine
end

section
/-! PROOF. What a host action can do, said once, and which agent a step is: the rules that the statements about steps and
ports cite (R45, log entry 4). -/

namespace Sys2Proof.Machine

variable {s s' : State}

theorem whenQuiescent_eq_next {r : Result} :
    whenQuiescent s r = .next s' ↔ quiescent s.phase = true ∧ r = .next s' := by
  unfold whenQuiescent
  split_ifs with hq <;> simp [hq]

/-- A write of CMD is NOP, which does nothing, or START (R86, R90). -/
theorem hostCommand_eq_next {c : BitVec 2} (h : hostCommand c s = .next s') : s' = s ∨ execStart s = .next s' := by
  have hdecode : ∀ c : BitVec 2, decodeCmd c = .ok .nop ∨ decodeCmd c = .ok .start ∨ decodeCmd c = .error .reservedCmd := by
    decide
  unfold hostCommand at h
  rcases hdecode c with hc | hc | hc <;> rw [hc] at h
  · cases h
    exact .inl rfl
  · exact .inr h
  · cases h

theorem hostReadOut_eq_next {i : Nat} :
    hostReadOut i s = .next s' ↔ s.phase = Phase.done ∧ ∃ b, Memory.read s.out i = some b ∧ s.see (.out i b) = s' := by
  simp only [hostReadOut, loadOut_eq_next]
  split_ifs with hp <;> simp [hp]

/-- Everything a host action that answers can do: write a port or a cell of IN on a quiescent engine, read, write CMD, or
reset. -/
theorem hostAct_eq_next {a : HostAction} (h : hostAct a s = .next s') :
    (quiescent s.phase = true ∧ ((∃ v, s' = s.setN v) ∨ (∃ v, s' = s.setPresent v) ∨
      ∃ i b, ((∃ x, Memory.read s.inp i = some x) ∨ i < Config.maxBytes) ∧ s' = s.setIn (Memory.write s.inp i b))) ∨
    (∃ v, s' = s.see v) ∨ (∃ c, a = .command c ∧ (s' = s ∨ execStart s = .next s')) ∨
    (a = .reset ∧ s' = hardwareReset s) := by
  cases a with
  | writeIn i b =>
    obtain ⟨hq, hw⟩ := whenQuiescent_eq_next.1 h
    obtain ⟨hi, hw⟩ := storeIn_eq_next.1 hw
    cases hw
    exact .inl ⟨hq, .inr (.inr ⟨i, b, hi, rfl⟩)⟩
  | writeN v =>
    obtain ⟨hq, hw⟩ := whenQuiescent_eq_next.1 h
    cases hw
    exact .inl ⟨hq, .inl ⟨_, rfl⟩⟩
  | writePresent v =>
    obtain ⟨hq, hw⟩ := whenQuiescent_eq_next.1 h
    cases hw
    exact .inl ⟨hq, .inr (.inl ⟨_, rfl⟩)⟩
  | command c => exact .inr (.inr (.inl ⟨c, rfl, hostCommand_eq_next h⟩))
  | readStatus =>
    cases h
    exact .inr (.inl ⟨_, rfl⟩)
  | readN =>
    obtain ⟨v, -, hr⟩ := need_eq_next.1 h
    cases hr
    exact .inr (.inl ⟨_, rfl⟩)
  | readPresent =>
    obtain ⟨v, -, hr⟩ := need_eq_next.1 h
    cases hr
    exact .inr (.inl ⟨_, rfl⟩)
  | readOut i =>
    obtain ⟨-, b, -, hr⟩ := hostReadOut_eq_next.1 h
    exact .inr (.inl ⟨_, hr.symm⟩)
  | reset =>
    cases h
    exact .inr (.inr (.inr ⟨rfl, rfl⟩))
  | readIn | readCmd | writeStatus | writeOut => cases h

/-- Writing `pc` as one record update: a comparison field by field need not go through four updates. -/
theorem State.setPc_eq (s : State) (phase : BitVec 4) (idx j : Nat) (t : BitVec 6) :
    s.setPc phase idx j t = { s with phase := phase, idx := some idx, j := some j, t := some t } := rfl

/-! ### Which agent a step is -/

theorem step_silent (h : s.pending = []) : step s = engineStep s := by simp [step, h]

theorem step_due {a : HostAction} {rest : List HostEvent} (h : s.pending = ⟨0, a⟩ :: rest) :
    step s = hostAct a (s.setPending rest) := by simp [step, h]

theorem step_waiting {k : Nat} {a : HostAction} {rest : List HostEvent} (h : s.pending = ⟨k + 1, a⟩ :: rest) :
    step s = engineStep (s.setPending (⟨k, a⟩ :: rest)) := by simp [step, h]

/-- The engine runs the instruction that the word it issues decodes to (R29, R80). -/
theorem engineStep_of_issues {i : Instr} (h : Issues s i) : engineStep s = exec i s := by
  have hq : quiescent s.phase = false := by
    have hbusy : ∀ p : BitVec 4, busy p = true → quiescent p = false := by decide
    exact hbusy _ (busy_of_issues h)
  obtain ⟨u, ⟨h7, rfl⟩ | ⟨h7, t, ht, rfl⟩, hd⟩ := h
  · exact engineStep_formatU hq h7 hd
  · rw [decodeUop_step] at hd
    cases hd
    rw [engineStep_step h7 ht, exec_stepInstr]

end Sys2Proof.Machine
end

section
/-! PROOF. O49, O50: reset is a legal state and every step keeps a state legal. What does not depend on PHASE is gathered
in `Running` and kept by each write a micro-operation makes; what PHASE promises is checked once per micro-operation
(R29, R30, R40). -/

namespace Sys2Proof.Machine

variable {s s' : State} {n : Nat}

/-- What a run on a message of `n` bytes keeps from INIT to the last UNPKB, whatever PHASE is. -/
def Running (s : State) (n : Nat) : Prop := MemoryOk s ∧ s.errcode = 0#2 ∧ PortsOk s n ∧ LengthsOk s n

/-- OUT holds no value. -/
def OutEmpty (s : State) : Prop := ∀ i, Memory.read s.out i = none

theorem outFilled_zero_iff : OutFilled s 0 ↔ OutEmpty s := by
  refine forall_congr' fun i => ?_
  cases Memory.read s.out i <;> simp

/-! ### From `Running` to `LegalState` and back -/

/-- In a quiescent phase only the memories, STATUS and, in DONE, the sixteen bytes of OUT matter. -/
theorem LegalState.of_quiescent (hq : quiescent s.phase = true) (hm : MemoryOk s)
    (he : s.errcode = if s.phase = Phase.err then 1#2 else 0#2) (hd : s.phase = Phase.done → OutFilled s 16) :
    LegalState s := by
  have hidle : ∀ p : BitVec 4, quiescent p = true → p ≠ Phase.init ∧ busy p = false := by decide
  obtain ⟨hinit, hbusy⟩ := hidle _ hq
  refine ⟨hm, ⟨by simp [legalPhase, hq], he⟩, fun hp => absurd hp hinit, fun hp => ?_, hd⟩
  simp [hbusy] at hp

theorem busy_ne {p : BitVec 4} (h : busy p = true) : p ≠ Phase.done ∧ p ≠ Phase.err := by
  revert p; decide

/-- In INIT's own phase the registers need hold nothing yet. -/
theorem LegalState.of_init (hp : s.phase = Phase.init) (hm : MemoryOk s) (he : s.errcode = 0#2) (hn : PortsOk s n) :
    LegalState s := by
  refine ⟨hm, ⟨by rw [hp]; rfl, by rw [hp, he]; rfl⟩, fun _ => ⟨n, hn⟩, fun h => absurd hp h.2, fun hd => ?_⟩
  rw [hp] at hd
  cases hd

theorem LegalState.of_running (hr : Running s n) (hb : busy s.phase = true) (hp : PhaseOk s n) : LegalState s := by
  obtain ⟨hm, he, hports, hlen⟩ := hr
  obtain ⟨hdone, herr⟩ := busy_ne hb
  exact ⟨hm, ⟨by simp [legalPhase, hb], by rw [if_neg herr, he]⟩, fun _ => ⟨n, hports⟩, fun _ => ⟨n, hports, hlen, hp⟩,
    fun hd => absurd hd hdone⟩

theorem LegalState.memoryOk (h : LegalState s) : MemoryOk s := h.1

theorem LegalState.legalPhase (h : LegalState s) : legalPhase s.phase = true := by
  obtain ⟨-, ⟨hp, -⟩, -⟩ := h
  exact hp

theorem LegalState.errcode (h : LegalState s) : s.errcode = if s.phase = Phase.err then 1#2 else 0#2 := by
  obtain ⟨-, ⟨-, he⟩, -⟩ := h
  exact he

theorem LegalState.errcode_of_busy (h : LegalState s) (hb : busy s.phase = true) : s.errcode = 0#2 := by
  rw [h.errcode, if_neg (busy_ne hb).2]

theorem LegalState.outFilled (h : LegalState s) (hd : s.phase = Phase.done) : OutFilled s 16 := by
  obtain ⟨-, -, -, -, hout⟩ := h
  exact hout hd

theorem LegalState.portsOk (h : LegalState s) (hp : s.phase = Phase.init) : ∃ n, PortsOk s n := by
  obtain ⟨-, -, hinit, -⟩ := h
  exact hinit hp

theorem LegalState.running (h : LegalState s) (hb : busy s.phase = true) (hi : s.phase ≠ Phase.init) :
    ∃ n, Running s n ∧ PhaseOk s n := by
  have he := h.errcode_of_busy hb
  obtain ⟨hm, -, -, hrun, -⟩ := h
  obtain ⟨n, hports, hlen, hp⟩ := hrun ⟨hb, hi⟩
  exact ⟨n, ⟨hm, he, hports, hlen⟩, hp⟩

/-- What a state that is legal in one busy phase `p` after INIT holds. -/
theorem LegalState.running_at (h : LegalState s) {p : BitVec 4} (hp : s.phase = p)
    (hb : (busy p && p != Phase.init) = true) : ∃ n, Running s n ∧ PhaseOk s n := by
  simp only [Bool.and_eq_true, bne_iff_ne] at hb
  subst hp
  exact h.running hb.1 hb.2

/-! ### What each phase promises -/

theorem phaseOk_pack (h : s.phase = Phase.pack) : PhaseOk s n ↔ IdxBelow s n ∧ OutEmpty s := by
  simp [PhaseOk, OutEmpty, h]

theorem phaseOk_swap (h : s.phase = Phase.swap) : PhaseOk s n ↔ IdxBelow s (ceil4 n) ∧ OutEmpty s := by
  simp [PhaseOk, OutEmpty, h]

theorem phaseOk_padbit (h : s.phase = Phase.padbit) : PhaseOk s n ↔ OutEmpty s := by simp [PhaseOk, OutEmpty, h]

theorem phaseOk_padlen (h : s.phase = Phase.padlen) : PhaseOk s n ↔ OutEmpty s := by simp [PhaseOk, OutEmpty, h]

theorem phaseOk_load (h : s.phase = Phase.load) : PhaseOk s n ↔ BlockBelow s n ∧ OutEmpty s := by
  simp [PhaseOk, OutEmpty, h]

theorem phaseOk_step (h : s.phase = Phase.step) : PhaseOk s n ↔ BlockBelow s n ∧ s.wr.allValued ∧ OutEmpty s := by
  simp [PhaseOk, OutEmpty, h]

theorem phaseOk_fold (h : s.phase = Phase.fold) : PhaseOk s n ↔ BlockBelow s n ∧ s.wr.allValued ∧ OutEmpty s := by
  simp [PhaseOk, OutEmpty, h]

theorem phaseOk_fswap (h : s.phase = Phase.fswap) :
    PhaseOk s n ↔ (∃ i < 4, s.idx = some i ∧ QFilled s i) ∧ OutEmpty s := by
  simp [PhaseOk, OutEmpty, h]

theorem phaseOk_unpk (h : s.phase = Phase.unpk) :
    PhaseOk s n ↔ QFilled s 4 ∧ ∃ i < 16, s.idx = some i ∧ OutFilled s i := by
  simp [PhaseOk, h]

/-! ### What each write keeps -/

theorem Running.setPhase (h : Running s n) (p : BitVec 4) : Running (s.setPhase p) n := h

theorem Running.setWr (h : Running s n) (v : Quad (Option Word)) : Running (s.setWr v) n := h

theorem Running.setQ (h : Running s n) (v : Quad (Option Word)) : Running (s.setQ v) n := h

theorem Running.setIdx (h : Running s n) (i : Nat) : Running (s.setIdx (some i)) n := by
  obtain ⟨hm, he, ⟨hn, hmax, hp, -, hj, ht⟩, hlen⟩ := h
  exact ⟨hm, he, ⟨hn, hmax, hp, ⟨i, rfl⟩, hj, ht⟩, hlen⟩

theorem Running.setJ (h : Running s n) (j : Nat) : Running (s.setJ (some j)) n := by
  obtain ⟨hm, he, ⟨hn, hmax, hp, hi, -, ht⟩, hlen⟩ := h
  exact ⟨hm, he, ⟨hn, hmax, hp, hi, ⟨j, rfl⟩, ht⟩, hlen⟩

theorem Running.setT (h : Running s n) (t : BitVec 6) : Running (s.setT (some t)) n := by
  obtain ⟨hm, he, ⟨hn, hmax, hp, hi, hj, -⟩, hlen⟩ := h
  exact ⟨hm, he, ⟨hn, hmax, hp, hi, hj, ⟨t, rfl⟩⟩, hlen⟩

theorem Running.setSt (h : Running s n) (v : Quad Word) : Running (s.setSt v.valued) n := by
  obtain ⟨hm, he, hports, hl, hnwm, hnw, hnb, -, hw⟩ := h
  exact ⟨hm, he, hports, hl, hnwm, hnw, hnb, ⟨v, rfl⟩, hw⟩

/-- A store to a word of W that exists. -/
theorem Running.setW (h : Running s n) {i : Nat} (hi : i < wcap) (x : Word) :
    Running (s.setW (Memory.write s.w i x)) n := by
  obtain ⟨⟨hin, ⟨hwf, hwithin⟩, hout⟩, he, hports, hl, hnwm, hnw, hnb, hst, hw⟩ := h
  exact ⟨⟨hin, ⟨Memory.wf_write _ _ _ hwf, Memory.within_write _ _ _ hi hwithin⟩, hout⟩, he, hports, hl, hnwm, hnw, hnb,
    hst, fun k hk => Memory.read_write_isSome _ _ _ _ (hw k hk)⟩

theorem MemoryOk.setOut (h : MemoryOk s) {i : Nat} (hi : i < 16) (b : Byte) :
    MemoryOk (s.setOut (Memory.write s.out i b)) := by
  obtain ⟨hin, hw, hwf, hwithin⟩ := h
  exact ⟨hin, hw, Memory.wf_write _ _ _ hwf, Memory.within_write _ _ _ hi hwithin⟩

theorem Running.setOut (h : Running s n) {i : Nat} (hi : i < 16) (b : Byte) :
    Running (s.setOut (Memory.write s.out i b)) n := by
  obtain ⟨hm, hrest⟩ := h
  exact ⟨hm.setOut hi b, hrest⟩

/-! ### What a run may read -/

theorem Running.memoryOk (h : Running s n) : MemoryOk s := h.1

theorem Running.errcode (h : Running s n) : s.errcode = 0#2 := by
  obtain ⟨-, he, -⟩ := h
  exact he

theorem Running.n_eq (h : Running s n) : s.n = some n := by
  obtain ⟨-, -, ⟨hn, -⟩, -⟩ := h
  exact hn

theorem Running.le_maxBytes (h : Running s n) : n ≤ Config.maxBytes := by
  obtain ⟨-, -, ⟨-, hmax, -⟩, -⟩ := h
  exact hmax

theorem Running.t_isSome (h : Running s n) : ∃ t, s.t = some t := by
  obtain ⟨-, -, ⟨-, -, -, -, -, ht⟩, -⟩ := h
  exact ht

theorem Running.len_eq (h : Running s n) : s.len = some (BitVec.ofNat 64 (8 * n)) := by
  obtain ⟨-, -, -, hl, -⟩ := h
  exact hl

theorem Running.nwm_eq (h : Running s n) : s.nwm = some (ceil4 n) := by
  obtain ⟨-, -, -, -, hnwm, -⟩ := h
  exact hnwm

theorem Running.nw_eq (h : Running s n) : s.nw = some (paddedWords n) := by
  obtain ⟨-, -, -, -, -, hnw, -⟩ := h
  exact hnw

theorem Running.nb_eq (h : Running s n) : s.nb = some (paddedBlocks n) := by
  obtain ⟨-, -, -, -, -, -, hnb, -⟩ := h
  exact hnb

theorem Running.st_allValued (h : Running s n) : s.st.allValued := by
  obtain ⟨-, -, -, -, -, -, -, hst, -⟩ := h
  exact hst

theorem Running.w_isSome (h : Running s n) {i : Nat} (hi : i < paddedWords n) : ∃ x, Memory.read s.w i = some x := by
  obtain ⟨-, -, -, -, -, -, -, -, hw⟩ := h
  exact hw i hi

/-- A word of W that holds a value exists. -/
theorem Running.lt_wcap (h : Running s n) {i : Nat} {x : Word} (hx : Memory.read s.w i = some x) : i < wcap := by
  obtain ⟨⟨-, ⟨-, hwithin⟩, -⟩, -⟩ := h
  exact Memory.lt_of_within hwithin hx

theorem paddedBlocks_pos (n : Nat) : 0 < paddedBlocks n := Nat.succ_pos _

theorem QFilled.set {i : Nat} (h : QFilled s i) (hi : i < 4) (x : Word) : QFilled (s.setQ (s.q.set i (some x))) (i + 1) := by
  intro k hk
  rw [State.setQ_q, Quad.get?_set _ _ _ _ hi]
  split_ifs with hki
  · exact ⟨x, rfl⟩
  · exact h k (by omega)

theorem OutFilled.write {i : Nat} (h : OutFilled s i) (b : Byte) : OutFilled (s.setOut (Memory.write s.out i b)) (i + 1) := by
  intro k
  rw [State.setOut_out, Memory.read_write]
  split_ifs with hki
  · simp [hki]
  · rw [h k]
    omega


/-! ### Each micro-operation leads from its phase to a legal state -/

theorem execInit_legal (h : LegalState s) (hp : s.phase = Phase.init) (hx : execInit s = .next s') : LegalState s' := by
  obtain ⟨n, hn, hmax, hpresent, -⟩ := h.portsOk hp
  obtain ⟨hin, ⟨hwf, hwithin⟩, -⟩ := h.memoryOk
  have he : s.errcode = 0#2 := h.errcode_of_busy (by rw [hp]; rfl)
  obtain ⟨n', hn', -, rfl⟩ := execInit_eq_next.1 hx
  cases hn.symm.trans hn'
  have hmem : MemoryOk (afterInit n (initData n s)) :=
    ⟨hin, ⟨Memory.wf_zeroBelow _ _ hwf, Memory.within_zeroBelow _ _ (paddedWords_le_wcap hmax) hwithin⟩, rfl, rfl⟩
  have hlen : LengthsOk (afterInit n (initData n s)) n := by
    refine ⟨rfl, rfl, rfl, congrArg some (paddedWords_div n), ⟨initialState, rfl⟩, fun i hi => ⟨0#32, ?_⟩⟩
    show Memory.read (Memory.zeroBelow s.w (paddedWords n)) i = _
    rw [Memory.read_zeroBelow, if_pos hi]
  have hrun : Running (afterInit n (initData n s)) n :=
    ⟨hmem, he, ⟨hn, hmax, hpresent, ⟨0, rfl⟩, ⟨0, rfl⟩, 0#6, rfl⟩, hlen⟩
  by_cases hpos : 0 < n
  · have hphase : (afterInit n (initData n s)).phase = Phase.pack := if_pos hpos
    exact .of_running hrun (by rw [hphase]; rfl) ((phaseOk_pack hphase).2 ⟨⟨0, hpos, rfl⟩, fun _ => rfl⟩)
  · have hphase : (afterInit n (initData n s)).phase = Phase.padbit := if_neg hpos
    exact .of_running hrun (by rw [hphase]; rfl) ((phaseOk_padbit hphase).2 fun _ => rfl)

theorem execPackb_legal (h : LegalState s) (hp : s.phase = Phase.pack) (hx : execPackb s = .next s') :
    LegalState s' := by
  obtain ⟨n, hr, hph⟩ := h.running_at hp rfl
  obtain ⟨⟨i, hi, hidx⟩, hout⟩ := (phaseOk_pack hp).1 hph
  obtain ⟨i', b, x, n', hi', -, hw, hn', rfl⟩ := execPackb_eq_next.1 hx
  cases hidx.symm.trans hi'
  cases hr.n_eq.symm.trans hn'
  have hr' := hr.setW (hr.lt_wcap hw) (x ||| byteAt b (codecShift i))
  unfold afterPackb
  split_ifs with hlt
  · exact .of_running (hr'.setIdx _) (congrArg busy hp)
      ((phaseOk_pack (by exact hp)).2 ⟨⟨i + 1, hlt, rfl⟩, hout⟩)
  · have hpos : 0 < ceil4 n := by unfold ceil4; omega
    exact .of_running ((hr'.setIdx 0).setPhase _) rfl ((phaseOk_swap rfl).2 ⟨⟨0, hpos, rfl⟩, hout⟩)

theorem execBswap_legal (h : LegalState s) (hp : s.phase = Phase.swap) (hx : execBswap s = .next s') :
    LegalState s' := by
  obtain ⟨n, hr, hph⟩ := h.running_at hp rfl
  obtain ⟨-, hout⟩ := (phaseOk_swap hp).1 hph
  obtain ⟨i, x, nwm, -, hw, hnwm, rfl⟩ := execBswap_eq_next.1 hx
  cases hr.nwm_eq.symm.trans hnwm
  have hr' := hr.setW (hr.lt_wcap hw) (bswap32 x)
  unfold afterBswap
  split_ifs with hlt
  · exact .of_running (hr'.setIdx _) (congrArg busy hp)
      ((phaseOk_swap (by exact hp)).2 ⟨⟨i + 1, hlt, rfl⟩, hout⟩)
  · exact .of_running ((hr'.setIdx 0).setPhase _) rfl ((phaseOk_padbit rfl).2 hout)

theorem execPadbit_legal (h : LegalState s) (hp : s.phase = Phase.padbit) (hx : execPadbit s = .next s') :
    LegalState s' := by
  obtain ⟨n, hr, hph⟩ := h.running_at hp rfl
  obtain ⟨l, x, -, hw, rfl⟩ := execPadbit_eq_next.1 hx
  exact .of_running ((hr.setW (hr.lt_wcap hw) _).setPhase _) rfl ((phaseOk_padlen rfl).2 ((phaseOk_padbit hp).1 hph))

theorem execPadlen_legal (h : LegalState s) (hp : s.phase = Phase.padlen) (hx : execPadlen s = .next s') :
    LegalState s' := by
  obtain ⟨n, hr, hph⟩ := h.running_at hp rfl
  obtain ⟨l, nw, -, hnw, hge, -, -, rfl⟩ := execPadlen_eq_next.1 hx
  cases hr.nw_eq.symm.trans hnw
  have hcap := paddedWords_le_wcap hr.le_maxBytes
  have hr' := (hr.setW (i := paddedWords n - 2) (by omega) (lenLow l)).setW (i := paddedWords n - 1) (by omega) (lenHigh l)
  exact .of_running ((hr'.setJ 0).setPhase _) rfl
    ((phaseOk_load rfl).2 ⟨⟨0, paddedBlocks_pos n, rfl⟩, (phaseOk_padlen hp).1 hph⟩)

theorem execLoadw_legal (h : LegalState s) (hp : s.phase = Phase.load) (hx : execLoadw s = .next s') :
    LegalState s' := by
  obtain ⟨n, hr, hph⟩ := h.running_at hp rfl
  obtain ⟨hj, hout⟩ := (phaseOk_load hp).1 hph
  obtain ⟨v, -, rfl⟩ := execLoadw_eq_next.1 hx
  exact .of_running (((hr.setWr v.valued).setT _).setPhase _) rfl ((phaseOk_step rfl).2 ⟨hj, ⟨v, rfl⟩, hout⟩)

theorem execStepT_legal {t : BitVec 6} (h : LegalState s) (hp : s.phase = Phase.step)
    (hx : execStepT t s = .next s') : LegalState s' := by
  obtain ⟨n, hr, hph⟩ := h.running_at hp rfl
  obtain ⟨hj, -, hout⟩ := (phaseOk_step hp).1 hph
  obtain ⟨r, j, m, -, -, -, rfl⟩ := execStepT_eq_next.1 hx
  have hr' := hr.setWr (stepFn t.toNat m r).valued
  unfold afterStep
  split_ifs
  · exact .of_running (hr'.setT _) (congrArg busy hp)
      ((phaseOk_step (by exact hp)).2 ⟨hj, ⟨_, rfl⟩, hout⟩)
  · exact .of_running ((hr'.setT _).setPhase _) rfl ((phaseOk_fold rfl).2 ⟨hj, ⟨_, rfl⟩, hout⟩)

theorem execFold_legal (h : LegalState s) (hp : s.phase = Phase.fold) (hx : execFold s = .next s') :
    LegalState s' := by
  obtain ⟨n, hr, hph⟩ := h.running_at hp rfl
  obtain ⟨-, -, hout⟩ := (phaseOk_fold hp).1 hph
  obtain ⟨v, r, j, nb, -, -, -, hnb, rfl⟩ := execFold_eq_next.1 hx
  cases hr.nb_eq.symm.trans hnb
  have hr' := hr.setSt (foldFn v r)
  unfold afterFold
  split_ifs with hlt
  · exact .of_running ((hr'.setJ _).setPhase _) rfl ((phaseOk_load rfl).2 ⟨⟨j + 1, hlt, rfl⟩, hout⟩)
  · exact .of_running ((hr'.setIdx 0).setPhase _) rfl
      ((phaseOk_fswap rfl).2 ⟨⟨0, by omega, rfl, fun k hk => absurd hk k.not_lt_zero⟩, hout⟩)

theorem execFswap_legal (h : LegalState s) (hp : s.phase = Phase.fswap) (hx : execFswap s = .next s') :
    LegalState s' := by
  obtain ⟨n, hr, hph⟩ := h.running_at hp rfl
  obtain ⟨⟨i, hi, hidx, hq⟩, hout⟩ := (phaseOk_fswap hp).1 hph
  obtain ⟨i', x, hi', -, rfl⟩ := execFswap_eq_next.1 hx
  cases hidx.symm.trans hi'
  have hr' := hr.setQ (s.q.set i (some (bswap32 x)))
  have hq' := hq.set hi (bswap32 x)
  unfold afterFswap
  split_ifs with hlt
  · exact .of_running (hr'.setIdx _) (congrArg busy hp)
      ((phaseOk_fswap (by exact hp)).2 ⟨⟨i + 1, by omega, rfl, hq'⟩, hout⟩)
  · have hlast : i + 1 = 4 := by omega
    exact .of_running ((hr'.setIdx 0).setPhase _) rfl
      ((phaseOk_unpk rfl).2 ⟨hlast ▸ hq', 0, by omega, rfl, outFilled_zero_iff.2 hout⟩)

theorem execUnpkb_legal (h : LegalState s) (hp : s.phase = Phase.unpk) (hx : execUnpkb s = .next s') :
    LegalState s' := by
  obtain ⟨n, hr, hph⟩ := h.running_at hp rfl
  obtain ⟨hq, i, hi, hidx, hout⟩ := (phaseOk_unpk hp).1 hph
  obtain ⟨i', x, hi', -, rfl⟩ := execUnpkb_eq_next.1 hx
  cases hidx.symm.trans hi'
  have hr' := hr.setOut hi ((x >>> codecShift i).setWidth 8)
  have hout' := hout.write ((x >>> codecShift i).setWidth 8)
  unfold afterUnpkb
  split_ifs with hlt
  · exact .of_running (hr'.setIdx _) (congrArg busy hp)
      ((phaseOk_unpk (by exact hp)).2 ⟨hq, i + 1, by omega, rfl, hout'⟩)
  · have hlast : i + 1 = 16 := by omega
    exact .of_quiescent rfl hr'.memoryOk hr'.errcode fun _ => hlast ▸ hout'

theorem engineStep_legal (h : LegalState s) (hx : engineStep s = .next s') : LegalState s' := by
  rcases engineStep_eq_next hx with ⟨-, rfl⟩ | ⟨hp, hx⟩ | ⟨hp, hx⟩ | ⟨hp, hx⟩ | ⟨hp, hx⟩ | ⟨hp, hx⟩ | ⟨hp, hx⟩ |
    ⟨hp, t, -, hx⟩ | ⟨hp, hx⟩ | ⟨hp, hx⟩ | ⟨hp, hx⟩
  · exact h
  · exact execInit_legal h hp hx
  · exact execPackb_legal h hp hx
  · exact execBswap_legal h hp hx
  · exact execPadbit_legal h hp hx
  · exact execPadlen_legal h hp hx
  · exact execLoadw_legal h hp hx
  · exact execStepT_legal h hp hx
  · exact execFold_legal h hp hx
  · exact execFswap_legal h hp hx
  · exact execUnpkb_legal h hp hx

/-! ### The host -/

/-- What the host is going to do and what it has seen are no part of what is legal. -/
theorem LegalState.setPending (h : LegalState s) (p : List HostEvent) : LegalState (s.setPending p) := h

theorem LegalState.see (h : LegalState s) (v : Seen) : LegalState (s.see v) := h

/-- On a quiescent engine the ports may hold anything. -/
theorem LegalState.setN (h : LegalState s) (hq : quiescent s.phase = true) (v : Option Nat) : LegalState (s.setN v) :=
  .of_quiescent hq h.memoryOk h.errcode h.outFilled

theorem LegalState.setPresent (h : LegalState s) (hq : quiescent s.phase = true) (v : Option Bool) :
    LegalState (s.setPresent v) :=
  .of_quiescent hq h.memoryOk h.errcode h.outFilled

theorem LegalState.setIn (h : LegalState s) (hq : quiescent s.phase = true) {i : Nat}
    (hi : (∃ x, Memory.read s.inp i = some x) ∨ i < Config.maxBytes) (b : Byte) :
    LegalState (s.setIn (Memory.write s.inp i b)) := by
  obtain ⟨⟨hwf, hwithin⟩, hrest⟩ := h.memoryOk
  have hlt : i < Config.maxBytes := hi.elim (fun ⟨_, hx⟩ => Memory.lt_of_within hwithin hx) id
  exact .of_quiescent hq ⟨⟨Memory.wf_write _ _ _ hwf, Memory.within_write _ _ _ hlt hwithin⟩, hrest⟩ h.errcode h.outFilled

theorem execStart_legal (h : LegalState s) (hx : execStart s = .next s') : LegalState s' := by
  obtain ⟨-, ⟨-, rfl⟩ | ⟨hp, n, hn, hmax, rfl⟩⟩ := execStart_eq_next.1 hx
  · exact .of_quiescent rfl h.memoryOk rfl nofun
  · rw [State.setPc_eq, State.setErrcode]
    exact .of_init rfl h.memoryOk rfl ⟨hn, hmax, hp, ⟨0, rfl⟩, ⟨0, rfl⟩, 0#6, rfl⟩

theorem reset_legal : LegalState State.reset := .of_quiescent rfl ⟨⟨rfl, rfl⟩, ⟨rfl, rfl⟩, rfl, rfl⟩ rfl nofun

theorem hardwareReset_legal (s : State) : LegalState (hardwareReset s) := reset_legal

theorem hostAct_legal {a : HostAction} (h : LegalState s) (hx : hostAct a s = .next s') : LegalState s' := by
  rcases hostAct_eq_next hx with ⟨hq, ⟨v, rfl⟩ | ⟨v, rfl⟩ | ⟨i, b, hi, rfl⟩⟩ | ⟨v, rfl⟩ | ⟨c, -, rfl | hs⟩ | ⟨-, rfl⟩
  · exact h.setN hq v
  · exact h.setPresent hq v
  · exact h.setIn hq hi b
  · exact h.see v
  · exact h
  · exact execStart_legal h hs
  · exact hardwareReset_legal s

/-- Settles O49: the reset state is quiescent, with empty memories. -/
theorem resetIsLegal : Obligations.ResetIsLegal := reset_legal

/-- Settles O50: a step is a host action or an engine step, and each keeps the state legal. -/
theorem stepKeepsLegal : Obligations.StepKeepsLegal := by
  intro s t h hs
  rcases step_cases s with ⟨a, rest, -, hstep⟩ | ⟨p, -, hstep⟩
  · exact hostAct_legal (h.setPending rest) (hstep ▸ hs)
  · exact engineStep_legal (h.setPending p) (hstep ▸ hs)

end Sys2Proof.Machine
end

section
/-! PROOF. O51: in a legal state the micro-operation of the phase finds every value it reads, and nothing the engine issues
is refused (R30, R87, R261). -/

namespace Sys2Proof.Machine

variable {s : State} {n : Nat}

theorem wordIndex_lt (t : Nat) : wordIndex t < 16 := by
  unfold wordIndex
  split <;> omega

/-- Every word of block `j` is a word of the padded message. -/
theorem stepWord_lt_paddedWords {j : Nat} (hj : j < paddedBlocks n) (t : Nat) : stepWord j t < paddedWords n := by
  have hk := wordIndex_lt t
  rw [paddedWords_eq, stepWord]
  omega

/-- The word that takes the terminator is a word of the padded message (R121). -/
theorem padWord_lt_paddedWords (hmax : n ≤ Config.maxBytes) : padWord (BitVec.ofNat 64 (8 * n)) < paddedWords n := by
  have hlast := bits_div_lt_paddedWords n
  rw [padWord, len_toNat hmax]
  omega

theorem codecWord_lt_paddedWords {i : Nat} (hi : i < n) : codecWord i < paddedWords n := by
  have hle := ceil4_le_paddedWords n
  unfold ceil4 at hle
  rw [codecWord_eq]
  omega

/-- Each of four valued registers holds a value. -/
theorem Quad.allValued.get?_isSome {r : Quad (Option Word)} (h : r.allValued) {i : Nat} (hi : i < 4) :
    ∃ x, r.get? i = some (some x) := by
  obtain ⟨v, rfl⟩ := h
  obtain ⟨x, hx⟩ := (Quad.get?_isSome v).2 hi
  exact ⟨x, by rw [Quad.get?_valued, hx]; rfl⟩

/-! ### Each micro-operation completes in its own phase -/

theorem execInit_completes (h : LegalState s) (hp : s.phase = Phase.init) : ∃ t, execInit s = .next t := by
  obtain ⟨n, hn, hmax, -⟩ := h.portsOk hp
  exact ⟨_, execInit_eq_next.2 ⟨n, hn, hmax, rfl⟩⟩

/-- PACKB is the one that needs the host to have loaded the message. -/
theorem execPackb_completes (h : LegalState s) (hp : s.phase = Phase.pack) (hn : s.n = some n)
    (hload : messageLoaded s n) : ∃ t, execPackb s = .next t := by
  obtain ⟨n', hr, hph⟩ := h.running_at hp rfl
  cases hr.n_eq.symm.trans hn
  obtain ⟨⟨i, hi, hidx⟩, -⟩ := (phaseOk_pack hp).1 hph
  obtain ⟨b, hb⟩ := hload i hi
  obtain ⟨x, hx⟩ := hr.w_isSome (codecWord_lt_paddedWords hi)
  exact ⟨_, execPackb_eq_next.2 ⟨i, b, x, n, hidx, hb, hx, hn, rfl⟩⟩

theorem execBswap_completes (h : LegalState s) (hp : s.phase = Phase.swap) : ∃ t, execBswap s = .next t := by
  obtain ⟨n, hr, hph⟩ := h.running_at hp rfl
  obtain ⟨⟨i, hi, hidx⟩, -⟩ := (phaseOk_swap hp).1 hph
  obtain ⟨x, hx⟩ := hr.w_isSome (hi.trans_le (ceil4_le_paddedWords n))
  exact ⟨_, execBswap_eq_next.2 ⟨i, x, _, hidx, hx, hr.nwm_eq, rfl⟩⟩

theorem execPadbit_completes (h : LegalState s) (hp : s.phase = Phase.padbit) : ∃ t, execPadbit s = .next t := by
  obtain ⟨n, hr, -⟩ := h.running_at hp rfl
  obtain ⟨x, hx⟩ := hr.w_isSome (padWord_lt_paddedWords hr.le_maxBytes)
  exact ⟨_, execPadbit_eq_next.2 ⟨_, x, hr.len_eq, hx, rfl⟩⟩

theorem execPadlen_completes (h : LegalState s) (hp : s.phase = Phase.padlen) : ∃ t, execPadlen s = .next t := by
  obtain ⟨n, hr, -⟩ := h.running_at hp rfl
  have hge := bits_div_lt_paddedWords n
  exact ⟨_, execPadlen_eq_next.2 ⟨_, _, hr.len_eq, hr.nw_eq, by omega, .inl (hr.w_isSome (by omega)),
    .inl (hr.w_isSome (by omega)), rfl⟩⟩

theorem execLoadw_completes (h : LegalState s) (hp : s.phase = Phase.load) : ∃ t, execLoadw s = .next t := by
  obtain ⟨n, hr, -⟩ := h.running_at hp rfl
  obtain ⟨v, hv⟩ := hr.st_allValued
  exact ⟨_, execLoadw_eq_next.2 ⟨v, hv, rfl⟩⟩

theorem execStepT_completes (h : LegalState s) (hp : s.phase = Phase.step) (t : BitVec 6) :
    ∃ s', execStepT t s = .next s' := by
  obtain ⟨n, hr, hph⟩ := h.running_at hp rfl
  obtain ⟨⟨j, hj, hjeq⟩, ⟨r, hwr⟩, -⟩ := (phaseOk_step hp).1 hph
  obtain ⟨m, hm⟩ := hr.w_isSome (stepWord_lt_paddedWords hj t.toNat)
  exact ⟨_, execStepT_eq_next.2 ⟨r, j, m, hwr, hjeq, hm, rfl⟩⟩

theorem execFold_completes (h : LegalState s) (hp : s.phase = Phase.fold) : ∃ t, execFold s = .next t := by
  obtain ⟨n, hr, hph⟩ := h.running_at hp rfl
  obtain ⟨⟨j, -, hj⟩, ⟨r, hwr⟩, -⟩ := (phaseOk_fold hp).1 hph
  obtain ⟨v, hv⟩ := hr.st_allValued
  exact ⟨_, execFold_eq_next.2 ⟨v, r, j, _, hv, hwr, hj, hr.nb_eq, rfl⟩⟩

theorem execFswap_completes (h : LegalState s) (hp : s.phase = Phase.fswap) : ∃ t, execFswap s = .next t := by
  obtain ⟨n, hr, hph⟩ := h.running_at hp rfl
  obtain ⟨⟨i, hi, hidx, -⟩, -⟩ := (phaseOk_fswap hp).1 hph
  obtain ⟨x, hx⟩ := hr.st_allValued.get?_isSome hi
  exact ⟨_, execFswap_eq_next.2 ⟨i, x, hidx, hx, rfl⟩⟩

theorem execUnpkb_completes (h : LegalState s) (hp : s.phase = Phase.unpk) : ∃ t, execUnpkb s = .next t := by
  obtain ⟨n, -, hph⟩ := h.running_at hp rfl
  obtain ⟨hq, i, hi, hidx, -⟩ := (phaseOk_unpk hp).1 hph
  obtain ⟨x, hx⟩ := hq (codecWord i) (by rw [codecWord_eq]; omega)
  exact ⟨_, execUnpkb_eq_next.2 ⟨i, x, hidx, hx, rfl⟩⟩

/-! ### The engine's step -/

/-- The engine completes its step in every legal state, but for PACKB of a byte the host has not written. -/
theorem engineStep_completes (h : LegalState s) :
    (∃ t, engineStep s = .next t) ∨ (s.phase = Phase.pack ∧ engineStep s = execPackb s) := by
  have hlegal := h.legalPhase
  rcases phase_cases s.phase with hp | hp | hp | hp | hp | hp | hp | hp | hp | hp | hp | hp | hp | hp
  · exact .inl ⟨s, engineStep_quiescent hp⟩
  · exact .inl (engineStep_init hp ▸ execInit_completes h hp)
  · exact .inr ⟨hp, engineStep_packb hp⟩
  · exact .inl (engineStep_bswap hp ▸ execBswap_completes h hp)
  · exact .inl (engineStep_padbit hp ▸ execPadbit_completes h hp)
  · exact .inl (engineStep_padlen hp ▸ execPadlen_completes h hp)
  · exact .inl (engineStep_loadw hp ▸ execLoadw_completes h hp)
  · obtain ⟨n, hr, -⟩ := h.running_at hp rfl
    obtain ⟨t, ht⟩ := hr.t_isSome
    exact .inl (engineStep_step hp ht ▸ execStepT_completes h hp t)
  · exact .inl (engineStep_fold hp ▸ execFold_completes h hp)
  · exact .inl (engineStep_fswap hp ▸ execFswap_completes h hp)
  · exact .inl (engineStep_unpkb hp ▸ execUnpkb_completes h hp)
  all_goals rw [hp] at hlegal; cases hlegal

/-- Settles O51: only PACKB can fail to complete, and then it faults on a byte that is not loaded. -/
theorem busyEngineCompletes : Obligations.BusyEngineCompletes := by
  constructor
  · intro s n h _ _ hn hload
    rcases engineStep_completes h with hnext | ⟨hp, hpack⟩
    · exact hnext
    · exact hpack ▸ execPackb_completes h hp hn hload
  · intro s r h
    rcases engineStep_completes h with ⟨t, hnext⟩ | ⟨-, hpack⟩
    · rw [hnext]
      nofun
    · rw [hpack]
      exact execPackb_ne_refused r

end Sys2Proof.Machine
end

section
/-! PROOF. O5 to O9: what a step runs, what a quiescent engine and the host leave alone, and PACKB. -/

namespace Sys2Proof.Machine

/-- Settles O5: the engine step is the issued instruction, on the state whose next host action is one step nearer. -/
theorem engineStepRunsDecoded : Obligations.EngineStepRunsDecoded := by
  intro s u i hu hd
  refine ⟨fun h => ?_, fun k a rest h => ?_⟩
  · rw [step_silent h]
    exact engineStep_of_issues ⟨u, hu, hd⟩
  · rw [step_waiting h]
    exact engineStep_of_issues (s := s.setPending _) ⟨u, hu, hd⟩

/-- Settles O6: a due action is the step, and a write of CMD runs what it decodes to. -/
theorem commandStepRunsDecoded : Obligations.CommandStepRunsDecoded := by
  refine fun s rest => ⟨fun a h => step_due h, fun c i h hd => ?_⟩
  rw [step_due h]
  show hostCommand c (s.setPending rest) = _
  rw [hostCommand, hd]
  rfl

/-- Settles O7: with no host action to come a step is an engine step, and each phase issues its own instruction. -/
theorem phaseSelectsInstruction : Obligations.PhaseSelectsInstruction := by
  intro s h
  rw [step_silent h]
  refine ⟨engineStep_init, engineStep_packb, engineStep_bswap, engineStep_padbit, engineStep_padlen, engineStep_loadw,
    fun t hp ht => ?step, engineStep_fold, engineStep_fswap, engineStep_unpkb,
    fun hp => engineStep_quiescent ((quiescent_iff _).2 hp), fun hp => engineStep_reserved ?reserved⟩
  case step => rw [engineStep_step hp ht, exec_stepInstr]
  case reserved => rcases hp with hp | hp | hp <;> rw [hp] <;> rfl

/-- Settles O8: but for CMD and reset a host action writes N, PRESENT, IN or what the host has seen. -/
theorem quiescentEngineStays : Obligations.QuiescentEngineStays := by
  refine ⟨fun s hp => engineStep_quiescent ((quiescent_iff _).2 hp), fun a s t h hcommand hreset => ?_⟩
  rcases hostAct_eq_next h with ⟨-, ⟨v, rfl⟩ | ⟨v, rfl⟩ | ⟨i, b, -, rfl⟩⟩ | ⟨v, rfl⟩ | ⟨c, hc, -⟩ | ⟨hr, -⟩
  · rfl
  · rfl
  · rfl
  · rfl
  · exact absurd hc (hcommand c)
  · exact absurd hr hreset

/-- PACKB reads `IN[idx]` first, so it faults there whatever else holds no value (R101 corner case 5, log entry 1). -/
theorem execPackb_unwritten {s : State} {i : Nat} (hi : s.idx = some i) (hb : Memory.read s.inp i = none) :
    execPackb s = .fault (if i < Config.maxBytes then .noValue (.inCell i) else .noSuchCell (.inCell i)) := by
  rw [execPackb, hi, need_some, loadIn]
  split_ifs with hlt
  · exact loadCell_noValue hb hlt
  · exact loadCell_noSuchCell hb (Nat.le_of_not_lt hlt)

/-- Settles O9: the result by PACKB's inversion lemma, the fault by the order of its reads. -/
theorem packbResult : Obligations.PackbResult :=
  ⟨rfl, fun _ i n b x hi hn hb hx => execPackb_eq_next.2 ⟨i, b, x, n, hi, hb, hx, hn, rfl⟩,
    fun _ _ hi hb => execPackb_unwritten hi hb⟩

end Sys2Proof.Machine
end

section
/-! PROOF. O44, O45, O47: what each instruction writes, said once per instruction; every field it does not name is as it
was (R20, R61). -/

namespace Sys2Proof.Machine

variable {s s' : State}

theorem execInit_writes (h : execInit s = .next s') : ∃ n st len nwm nw nb idx j t p, s.n = some n ∧
    s' = { s with
      st := st, len := len, nwm := nwm, nw := nw, nb := nb, w := Memory.zeroBelow s.w (paddedWords n), out := []
      idx := idx, j := j, t := t, phase := p } := by
  obtain ⟨n, hn, -, rfl⟩ := execInit_eq_next.1 h
  exact ⟨n, _, _, _, _, _, _, _, _, _, hn, rfl⟩

theorem execPackb_writes (h : execPackb s = .next s') : ∃ w idx p, s' = { s with w := w, idx := idx, phase := p } := by
  obtain ⟨i, b, x, n, -, -, -, -, rfl⟩ := execPackb_eq_next.1 h
  unfold afterPackb
  split_ifs
  · exact ⟨_, _, _, rfl⟩
  · exact ⟨_, _, _, rfl⟩

theorem execBswap_writes (h : execBswap s = .next s') : ∃ w idx p, s' = { s with w := w, idx := idx, phase := p } := by
  obtain ⟨i, x, n, -, -, -, rfl⟩ := execBswap_eq_next.1 h
  unfold afterBswap
  split_ifs
  · exact ⟨_, _, _, rfl⟩
  · exact ⟨_, _, _, rfl⟩

theorem execPadbit_writes (h : execPadbit s = .next s') : ∃ w p, s' = { s with w := w, phase := p } := by
  obtain ⟨l, x, -, -, rfl⟩ := execPadbit_eq_next.1 h
  exact ⟨_, _, rfl⟩

theorem execPadlen_writes (h : execPadlen s = .next s') : ∃ w j p, s' = { s with w := w, j := j, phase := p } := by
  obtain ⟨l, n, -, -, -, -, -, rfl⟩ := execPadlen_eq_next.1 h
  exact ⟨_, _, _, rfl⟩

theorem execLoadw_writes (h : execLoadw s = .next s') : ∃ wr t p, s' = { s with wr := wr, t := t, phase := p } := by
  obtain ⟨v, -, rfl⟩ := execLoadw_eq_next.1 h
  exact ⟨_, _, _, rfl⟩

theorem execStepT_writes {k : BitVec 6} (h : execStepT k s = .next s') :
    ∃ wr t p, s' = { s with wr := wr, t := t, phase := p } := by
  obtain ⟨r, j, m, -, -, -, rfl⟩ := execStepT_eq_next.1 h
  unfold afterStep
  split_ifs
  · exact ⟨_, _, _, rfl⟩
  · exact ⟨_, _, _, rfl⟩

theorem execFold_writes (h : execFold s = .next s') :
    ∃ st idx j p, s' = { s with st := st, idx := idx, j := j, phase := p } := by
  obtain ⟨v, r, j, n, -, -, -, -, rfl⟩ := execFold_eq_next.1 h
  unfold afterFold
  split_ifs
  · exact ⟨_, _, _, _, rfl⟩
  · exact ⟨_, _, _, _, rfl⟩

theorem execFswap_writes (h : execFswap s = .next s') : ∃ i x idx p, s.idx = some i ∧ i < 4 ∧
    s' = { s with q := s.q.set i (some x), idx := idx, phase := p } := by
  obtain ⟨i, x, hi, hx, rfl⟩ := execFswap_eq_next.1 h
  have hlt : i < 4 := (Quad.get?_isSome s.st).1 ⟨_, hx⟩
  unfold afterFswap
  split_ifs
  · exact ⟨i, _, _, _, hi, hlt, rfl⟩
  · exact ⟨i, _, _, _, hi, hlt, rfl⟩

theorem execUnpkb_writes (h : execUnpkb s = .next s') : ∃ i b idx p, s.idx = some i ∧
    s' = { s with out := Memory.write s.out i b, idx := idx, phase := p } := by
  obtain ⟨i, x, hi, -, rfl⟩ := execUnpkb_eq_next.1 h
  unfold afterUnpkb
  split_ifs
  · exact ⟨i, _, _, _, hi, rfl⟩
  · exact ⟨i, _, _, _, hi, rfl⟩

theorem execStart_writes (h : execStart s = .next s') :
    ∃ e idx j t p, s' = { s with errcode := e, idx := idx, j := j, t := t, phase := p } := by
  obtain ⟨-, ⟨-, rfl⟩ | ⟨-, n, -, -, rfl⟩⟩ := execStart_eq_next.1 h
  · exact ⟨_, _, _, _, _, rfl⟩
  · exact ⟨_, _, _, _, _, State.setPc_eq ..⟩

/-- LOADW and STEPt write WR, `t` and PHASE. -/
theorem exec_loadw_or_step_writes {k : BitVec 6} (h : exec .loadw s = .next s' ∨ exec (stepInstr k) s = .next s') :
    ∃ wr t p, s' = { s with wr := wr, t := t, phase := p } := by
  rw [exec_stepInstr] at h
  exact h.elim execLoadw_writes execStepT_writes

/-- Settles O44: none of the four writes a memory, a length register, a port or a field of the model's own. -/
theorem frameOfRegisterOps : Obligations.FrameOfRegisterOps := by
  have hsame : ∀ s : State, SameMemories s s ∧ SameLengths s s ∧ SamePorts s s := fun _ =>
    ⟨⟨fun _ => rfl, fun _ _ => rfl, fun _ _ => rfl⟩, ⟨rfl, rfl, rfl, rfl⟩, rfl, rfl, rfl, rfl, rfl⟩
  refine fun s t k => ⟨fun h => ?all, fun h => ?loadwStep, fun h => ?fold, fun h => ?fswap⟩
  case all =>
    rcases or_assoc.2 h with h | h | h
    · obtain ⟨wr, t', p, rfl⟩ := exec_loadw_or_step_writes h
      exact hsame s
    · obtain ⟨st, idx, j, p, rfl⟩ := execFold_writes h
      exact hsame s
    · obtain ⟨i, x, idx, p, -, -, rfl⟩ := execFswap_writes h
      exact hsame s
  case loadwStep =>
    obtain ⟨wr, t', p, rfl⟩ := exec_loadw_or_step_writes h
    exact ⟨rfl, rfl, rfl, rfl⟩
  case fold =>
    obtain ⟨st, idx, j, p, rfl⟩ := execFold_writes h
    exact ⟨rfl, rfl, rfl⟩
  case fswap =>
    obtain ⟨i, x, idx, p, hi, hlt, rfl⟩ := execFswap_writes h
    refine ⟨rfl, rfl, rfl, rfl, fun i' hi' k _ hk => ?_⟩
    cases hi.symm.trans hi'
    show (s.q.set i (some x)).get? k = _
    rw [Quad.get?_set _ _ _ _ hlt, if_neg hk]

/-- Settles O45: UNPKB stores one byte, INIT clears OUT and the words below NW. -/
theorem frameOfInitAndUnpkb : Obligations.FrameOfInitAndUnpkb := by
  refine fun s t => ⟨fun h => ?unpkb, fun h => ?init⟩
  case unpkb =>
    obtain ⟨i, b, idx, p, hi, rfl⟩ := execUnpkb_writes h
    refine ⟨rfl, rfl, rfl, rfl, rfl, ⟨rfl, rfl, rfl, rfl⟩, ⟨rfl, rfl, rfl, rfl, rfl⟩, fun _ => rfl, fun _ _ => rfl,
      fun i' hi' a ha => ?_⟩
    cases hi.symm.trans hi'
    exact Memory.read_write_other _ (by simpa using ha) _
  case init =>
    obtain ⟨n, st, len, nwm, nw, nb, idx, j, t', p, hn, rfl⟩ := execInit_writes h
    refine ⟨rfl, rfl, ⟨rfl, rfl, rfl, rfl, rfl⟩, fun _ => rfl, fun n' hn' a ha => ?_⟩
    cases hn.symm.trans hn'
    show Memory.read (Memory.zeroBelow s.w (paddedWords n)) a = _
    rw [Memory.read_zeroBelow, if_neg (by simpa using ha)]

/-- Settles O47: for each kind of instruction, the fields that its `writes` lemma does not name are unchanged. -/
theorem writersOfState : Obligations.WritersOfState := by
  intro i s t h
  rcases Instr.kinds i with ⟨k, rfl⟩ | rfl | rfl | rfl | rfl | rfl | rfl | rfl | rfl | rfl | rfl | rfl
  · rw [exec_stepInstr] at h
    obtain ⟨wr, t', p, rfl⟩ := execStepT_writes h
    simp
  · obtain ⟨n, st, len, nwm, nw, nb, idx, j, t', p, -, rfl⟩ := execInit_writes h
    simp
  · obtain ⟨w, idx, p, rfl⟩ := execPackb_writes h
    simp
  · obtain ⟨w, idx, p, rfl⟩ := execBswap_writes h
    simp
  · obtain ⟨w, p, rfl⟩ := execPadbit_writes h
    simp
  · obtain ⟨w, j, p, rfl⟩ := execPadlen_writes h
    simp
  · obtain ⟨wr, t', p, rfl⟩ := execLoadw_writes h
    simp
  · obtain ⟨st, idx, j, p, rfl⟩ := execFold_writes h
    simp
  · obtain ⟨i, x, idx, p, -, -, rfl⟩ := execFswap_writes h
    simp
  · obtain ⟨i, b, idx, p, -, rfl⟩ := execUnpkb_writes h
    simp
  · obtain ⟨e, idx, j, t', p, rfl⟩ := execStart_writes h
    simp
  · cases h
    simp

end Sys2Proof.Machine
end

section
/-! PROOF. O39 to O42: the host's ports, the STATUS view and hardware reset (R36, R43, R45, R321). -/

namespace Sys2Proof.Machine

variable {s : State}

theorem whenQuiescent_of (hq : quiescent s.phase = true) (r : Result) : whenQuiescent s r = r := if_pos hq

/-- Settles O39: each access is one case of `hostAct`; a write goes through because the engine is quiescent. -/
theorem hostPortAccess : Obligations.HostPortAccess := by
  intro s
  refine ⟨fun hp => ?writes, fun v hn => need_eq_next.2 ⟨v, hn, rfl⟩, fun hn => ?noLength,
    fun v hp => need_eq_next.2 ⟨v, hp, rfl⟩, fun hp => ?noPresent, fun _ => rfl, rfl, fun _ => rfl, fun _ _ => rfl⟩
  case writes =>
    have hq := (quiescent_iff _).2 hp
    exact ⟨fun v => whenQuiescent_of hq _, fun v => whenQuiescent_of hq _,
      fun i b hi => (whenQuiescent_of hq _).trans (storeIn_of hi)⟩
  case noLength => rw [hostAct, hn, need_none]
  case noPresent => rw [hostAct, hp, need_none]

theorem busy_iff_toNat (p : BitVec 4) : busy p = true ↔ 1 ≤ p.toNat ∧ p.toNat ≤ 10 := by simp [busy]

/-- The two fields of STATUS (R36). -/
theorem status_fields (e : BitVec 2) (p : BitVec 4) :
    (e ++ p).extractLsb' 0 4 = p ∧ (e ++ p).extractLsb' 4 2 = e := by
  revert e p; decide

/-- Settles O40: the two fields of the concatenation, and the classes of PHASE. -/
theorem statusView : Obligations.StatusView := by
  intro s
  obtain ⟨hphase, herrcode⟩ := status_fields s.errcode s.phase
  exact ⟨hphase, herrcode, busy_iff_toNat s.phase, beq_iff_eq, beq_iff_eq, rfl⟩

/-- Outside DONE no read of OUT answers a next state, and none is refused (R321). -/
theorem hostReadOut_faults (hp : s.phase ≠ Phase.done) (i : Nat) : ∃ f, hostReadOut i s = .fault f := by
  refine exists_fault (fun t ht => hp (hostReadOut_eq_next.1 ht).1) fun e => loadCell_ne_refused fun b => ?_
  rw [if_neg hp]
  nofun

/-- Settles O41: the read goes on exactly in DONE. -/
theorem outReadOnlyWhenDone : Obligations.OutReadOnlyWhenDone := fun _ i =>
  ⟨fun b hp hb => hostReadOut_eq_next.2 ⟨hp, b, hb, rfl⟩, fun hp => hostReadOut_faults hp i⟩

theorem Quad.get?_none {i : Nat} (hi : i < 4) : Quad.none.get? i = some Option.none := by
  revert i; decide

/-- The state after reset, whatever the model's own two fields hold (R43, log entry 17). -/
theorem hardwareReset_holdsNothing (s : State) : HoldsNothing (hardwareReset s) :=
  ⟨rfl, rfl, fun _ hi => ⟨Quad.get?_none hi, Quad.get?_none hi, Quad.get?_none hi⟩, rfl, rfl, rfl, rfl, rfl, rfl, rfl,
    rfl, rfl, fun _ => ⟨rfl, rfl, rfl⟩⟩

/-- Settles O42: reset forgets the state it is applied to. -/
theorem hardwareReset_holds : Obligations.HardwareReset :=
  ⟨fun s => ⟨_, rfl, hardwareReset_holdsNothing s⟩, hardwareReset_holdsNothing State.reset⟩

end Sys2Proof.Machine
end

section
/-! PROOF. O10, O17, O43: the lanes PACKB writes, the sizes of the padded message, and what the four micro-operations that
store words leave alone (R50, R57, R61, R101, R126). -/

namespace Sys2Proof.Machine

variable {s s' : State}

/-! ### The lanes of PACKB -/

/-- The codec places byte `i` in lane `3 - (i mod 4)` of its word (R50). -/
theorem codecShift_eq_lane (i : Nat) : codecShift i = 8 * (3 - i % 4) := by rw [codecShift_eq]; omega

/-- OR of a byte into a lane that is zero puts the byte there. -/
theorem byteLane_or_byteAt_same (x : Word) (b : Byte) {q : Nat} (hq : q < 4) (hx : byteLane x q = 0#8) :
    byteLane (x ||| byteAt b (8 * q)) q = b := by
  rw [byteLane_or, hx, byteLane_byteAt b q q hq hq, if_pos rfl, BitVec.zero_or]

theorem byteLane_or_byteAt_other (x : Word) (b : Byte) {p q : Nat} (hp : p < 4) (hq : q < 4) (hne : p ≠ q) :
    byteLane (x ||| byteAt b (8 * q)) p = byteLane x p := by
  rw [byteLane_or, byteLane_byteAt b p q hp hq, if_neg hne, BitVec.or_zero]

/-- Settles O10: the word stored is the old one with the byte ORed into lane `3 - (i mod 4)`. -/
theorem packbPlacesByte : Obligations.PackbPlacesByte := by
  intro s t i b x h hi hb hx hzero
  rw [← codecWord_eq] at hx ⊢
  obtain ⟨i', b', x', n, hi', hb', hx', -, rfl⟩ := execPackb_eq_next.1 h
  cases hi.symm.trans hi'
  cases hb.symm.trans hb'
  cases hx.symm.trans hx'
  have hlane : 3 - i % 4 < 4 := by omega
  refine ⟨x ||| byteAt b (codecShift i), by simp, ?_⟩
  rw [codecShift_eq_lane]
  exact ⟨byteLane_or_byteAt_same x b hlane hzero, fun p hp hne => byteLane_or_byteAt_other x b hp hlane hne⟩

/-! ### The sizes of the padded message -/

/-- NB blocks hold the message, the terminator bit and the length, and no fewer do (R57). -/
theorem paddedBlocks_le_iff (n m : Nat) : paddedBlocks n ≤ m ↔ 8 * n + 65 ≤ 512 * m := by
  unfold paddedBlocks; omega

/-- Between the terminator word and the length words lie at most 15 words (R59). -/
theorem zeroWords_le (n : Nat) : paddedWords n - 3 - 8 * n / 32 ≤ 15 := by unfold paddedWords; omega

/-- A message of `(29 - z) mod 16` whole words leaves exactly `z` words of zeros (R59). -/
theorem paddedWords_of_zeroWords {z : Nat} (hz : z ≤ 15) :
    paddedWords (4 * ((29 - z) % 16)) = 8 * (4 * ((29 - z) % 16)) / 32 + 3 + z := by
  unfold paddedWords; omega

/-- Settles O17: the block count is the least that holds `8N + 65` bits; the rest is arithmetic on `NW`. -/
theorem paddedSizes : Obligations.PaddedSizes := by
  refine ⟨fun n => ⟨rfl, (paddedWords_div n).symm, rfl, Nat.succ_pos _, (paddedBlocks_le_iff n _).1 le_rfl,
    fun m => (paddedBlocks_le_iff n m).2⟩, fun n => ⟨bits_div_lt_paddedWords n, zeroWords_le n⟩,
    fun z hz => ⟨_, paddedWords_of_zeroWords hz⟩, maxBytes_le, fun n hn => ?_⟩
  have hmax := maxBytes_le
  omega

/-! ### The frame of the word stores -/

/-- PACKB, BSWAP, PADBIT and PADLEN write W and `pc`, but not `t`. -/
theorem exec_wordStore_writes (h : exec .packb s = .next s' ∨ exec .bswap s = .next s' ∨ exec .padbit s = .next s' ∨
    exec .padlen s = .next s') : ∃ w idx j p, s' = { s with w := w, idx := idx, j := j, phase := p } := by
  rcases h with h | h | h | h
  · obtain ⟨w, idx, p, rfl⟩ := execPackb_writes h
    exact ⟨_, _, _, _, rfl⟩
  · obtain ⟨w, idx, p, rfl⟩ := execBswap_writes h
    exact ⟨_, _, _, _, rfl⟩
  · obtain ⟨w, p, rfl⟩ := execPadbit_writes h
    exact ⟨_, _, _, _, rfl⟩
  · obtain ⟨w, j, p, rfl⟩ := execPadlen_writes h
    exact ⟨_, _, _, _, rfl⟩

theorem sameWOutside_of_write {i : Nat} {x : Word} (h : s'.w = Memory.write s.w i x) : SameWOutside [i] s s' := by
  intro a ha
  rw [h, Memory.read_write_other _ (by simpa using ha)]

theorem execPackb_sameWOutside {i : Nat} (h : execPackb s = .next s') (hi : s.idx = some i) :
    SameWOutside [codecWord i] s s' := by
  obtain ⟨i', b, x, n, hi', -, -, -, rfl⟩ := execPackb_eq_next.1 h
  cases hi.symm.trans hi'
  exact sameWOutside_of_write (afterPackb_w ..)

theorem execBswap_sameWOutside {i : Nat} (h : execBswap s = .next s') (hi : s.idx = some i) :
    SameWOutside [i] s s' := by
  obtain ⟨i', x, n, hi', -, -, rfl⟩ := execBswap_eq_next.1 h
  cases hi.symm.trans hi'
  exact sameWOutside_of_write (afterBswap_w ..)

theorem execPadbit_sameWOutside {l : BitVec 64} (h : execPadbit s = .next s') (hl : s.len = some l) :
    SameWOutside [padWord l] s s' := by
  obtain ⟨l', x, hl', -, rfl⟩ := execPadbit_eq_next.1 h
  cases hl.symm.trans hl'
  exact sameWOutside_of_write (afterPadbit_w _)

theorem execPadlen_sameWOutside {n : Nat} (h : execPadlen s = .next s') (hn : s.nw = some n) :
    SameWOutside [n - 2, n - 1] s s' := by
  obtain ⟨l, n', -, hn', -, -, -, rfl⟩ := execPadlen_eq_next.1 h
  cases hn.symm.trans hn'
  intro a ha
  simp only [List.mem_cons, List.not_mem_nil, or_false, not_or] at ha
  obtain ⟨hlow, hhigh⟩ := ha
  rw [afterPadlen_w, State.setW_w, Memory.read_write_other _ hhigh, Memory.read_write_other _ hlow]

/-- Settles O43: the four write W and `pc` only, and of W the words that they address. -/
theorem frameOfWordStores : Obligations.FrameOfWordStores := by
  refine fun s t => ⟨fun h => ?all, fun h => ?packb, fun h => ?bswap, fun h => ?padbit, fun h => ?padlen⟩
  case all =>
    obtain ⟨w, idx, j, p, rfl⟩ := exec_wordStore_writes h
    exact ⟨rfl, rfl, rfl, ⟨rfl, rfl, rfl, rfl⟩, ⟨rfl, rfl, rfl, rfl, rfl⟩, fun _ => rfl, fun _ _ => rfl, rfl⟩
  case packb =>
    have hw := fun i => execPackb_sameWOutside (i := i) h
    obtain ⟨w, idx, p, rfl⟩ := execPackb_writes h
    exact ⟨rfl, hw⟩
  case bswap =>
    have hw := fun i => execBswap_sameWOutside (i := i) h
    obtain ⟨w, idx, p, rfl⟩ := execBswap_writes h
    exact ⟨rfl, hw⟩
  case padbit =>
    have hw := fun l => execPadbit_sameWOutside (l := l) h
    obtain ⟨w, p, rfl⟩ := execPadbit_writes h
    exact ⟨rfl, rfl, hw⟩
  case padlen =>
    have hw := fun n => execPadlen_sameWOutside (n := n) h
    obtain ⟨w, j, p, rfl⟩ := execPadlen_writes h
    exact ⟨rfl, hw⟩

end Sys2Proof.Machine
end

section
/-! PROOF. How stretches of a run are put together from single micro-operations (R29, R92). -/

namespace Sys2Proof.Machine

variable {s : State} {P Q : State → Prop} {i : Instr}

theorem undisturbed.mono {k m : Nat} (h : undisturbed s m) (hkm : k ≤ m) : undisturbed s k :=
  fun e he => hkm.trans (h e he)

/-- One micro-operation of the format U phase `p` (R29, R81). -/
theorem Reaches.microOp (p : BitVec 4) (hd : decodeUop (p ++ 0#6) = .ok i) (h7 : p ≠ Phase.step)
    (hpending : ∀ s q, P s → P (s.setPending q)) (hphase : ∀ s, P s → s.phase = p)
    (h : ∀ s, P s → ∃ s', exec i s = .next s' ∧ Q s') : Reaches P [i] Q := by
  have hissues : ∀ s, P s → Issues s i := fun s hP => by
    have hp := hphase s hP
    exact issues_of_phase (by rw [hp, hd]) (by rw [hp]; exact h7)
  exact Reaches.one hpending hissues fun s hP => by
    rw [engineStep_of_issues (hissues s hP)]
    exact h s hP

/-- The same micro-operation `n` times. -/
theorem Reaches.replicate {P : Nat → State → Prop} {n : Nat} (h : ∀ k < n, Reaches (P k) [i] (P (k + 1))) :
    Reaches (P 0) (List.replicate n i) (P n) := by
  rw [replicate_eq_flatMap]
  exact Reaches.loop h

end Sys2Proof.Machine
end

section
/-! PROOF. O55: FINAL as two loops, whose predicates say how far the serialisation of the State has come (R53, R103,
R245). -/

namespace Sys2Proof.Machine

variable {s s' : State} {v : Quad Word}

theorem Quad.get?_eq_word (r : Quad Word) {i : Nat} (hi : i < 4) : r.get? i = some (r.word i) := by
  obtain ⟨x, hx⟩ := (Quad.get?_isSome r).2 hi
  rw [Quad.word, hx, Option.getD_some]

/-- A lane of a word is a digit of it in base 256. -/
theorem byteLane_eq_ofNat (x : Word) (p : Nat) : byteLane x p = BitVec.ofNat 8 (x.toNat / 2 ^ (8 * p)) := by
  rw [byteLane, BitVec.extractLsb', Nat.shiftRight_eq_div_pow]

/-- UNPKB undoes FSWAP: big-endian byte `i` of the swapped words is little-endian byte `i` of the State (R53). -/
theorem unpacked_bswap32_word (v : Quad Word) (i : Nat) :
    (bswap32 (v.word (codecWord i)) >>> codecShift i).setWidth 8 = digestByte v i := by
  have hlane : 3 - (3 - i % 4) = i % 4 := by omega
  rw [codecShift_eq_lane, byteLane_of_shift, byteLane_bswap32 _ _ (by omega), hlane, codecWord_eq, digestByte]

/-- `Q[i]` holds the swapped State register for every `i < k` (R245). -/
def QSwapped (v : Quad Word) (k : Nat) (s : State) : Prop := ∀ i < k, s.q.get? i = some (some (bswap32 (v.word i)))

/-- The sequencer is about to unpack byte `i`, or done with all sixteen (R259). -/
def AtUnpkb (i : Nat) (s : State) : Prop :=
  if i < 16 then s.phase = Phase.unpk ∧ s.idx = some i else s.phase = Phase.done

/-- The sequencer is about to swap register `i`, or done with all four (R258). -/
def AtFswap (i : Nat) (s : State) : Prop := if i < 4 then s.phase = Phase.fswap ∧ s.idx = some i else AtUnpkb 0 s

/-- After `i` FSWAP on the State `v`. -/
def FinalSwapping (v : Quad Word) (i : Nat) (s : State) : Prop := s.st = v.valued ∧ AtFswap i s ∧ QSwapped v i s

/-- After `i` UNPKB on the State `v`. -/
def FinalUnpacking (v : Quad Word) (i : Nat) (s : State) : Prop :=
  s.st = v.valued ∧ AtUnpkb i s ∧ QSwapped v 4 s ∧ ∀ k < i, Memory.read s.out k = some (digestByte v k)

theorem atFswap_afterFswap {i : Nat} (hp : s.phase = Phase.fswap) : AtFswap (i + 1) (afterFswap i s) := by
  unfold AtFswap afterFswap
  by_cases hi : i < 3
  · rw [if_pos (by omega), if_pos hi]
    exact ⟨hp, rfl⟩
  · rw [if_neg (by omega), if_neg hi]
    exact ⟨rfl, rfl⟩

theorem atUnpkb_afterUnpkb {i : Nat} (hp : s.phase = Phase.unpk) : AtUnpkb (i + 1) (afterUnpkb i s) := by
  unfold AtUnpkb afterUnpkb
  by_cases hi : i < 15
  · rw [if_pos (by omega), if_pos hi]
    exact ⟨hp, rfl⟩
  · rw [if_neg (by omega), if_neg hi]
    rfl

theorem QSwapped.set {i : Nat} (h : QSwapped v i s) (hi : i < 4) :
    QSwapped v (i + 1) (s.setQ (s.q.set i (some (bswap32 (v.word i))))) := by
  intro k hk
  rw [State.setQ_q, Quad.get?_set _ _ _ _ hi]
  split_ifs with hki
  · rw [hki]
  · exact h k (by omega)

/-- FSWAP `i` swaps one more register. -/
theorem finalSwapping_step (v : Quad Word) {i : Nat} (hi : i < 4) :
    Reaches (FinalSwapping v i) [.fswap] (FinalSwapping v (i + 1)) := by
  have hat : ∀ s, FinalSwapping v i s → s.phase = Phase.fswap ∧ s.idx = some i := by
    rintro s ⟨-, hat, -⟩
    rwa [AtFswap, if_pos hi] at hat
  refine Reaches.microOp Phase.fswap rfl (by decide) (fun _ _ h => h) (fun s h => (hat s h).1) fun s h => ?_
  obtain ⟨hp, hidx⟩ := hat s h
  obtain ⟨hst, -, hq⟩ := h
  have hreg : s.st.get? i = some (some (v.word i)) := by rw [hst, Quad.get?_valued, Quad.get?_eq_word v hi]; rfl
  refine ⟨_, execFswap_eq_next.2 ⟨i, _, hidx, hreg, rfl⟩, ?_, atFswap_afterFswap hp, ?_⟩
  · rw [afterFswap_st]
    exact hst
  · intro k hk
    rw [afterFswap_q]
    exact hq.set hi k hk

/-- UNPKB `i` puts one more byte of the digest into OUT. -/
theorem finalUnpacking_step (v : Quad Word) {i : Nat} (hi : i < 16) :
    Reaches (FinalUnpacking v i) [.unpkb] (FinalUnpacking v (i + 1)) := by
  have hat : ∀ s, FinalUnpacking v i s → s.phase = Phase.unpk ∧ s.idx = some i := by
    rintro s ⟨-, hat, -⟩
    rwa [AtUnpkb, if_pos hi] at hat
  refine Reaches.microOp Phase.unpk rfl (by decide) (fun _ _ h => h) (fun s h => (hat s h).1) fun s h => ?_
  obtain ⟨hp, hidx⟩ := hat s h
  obtain ⟨hst, -, hq, hout⟩ := h
  have hreg := hq (codecWord i) (by rw [codecWord_eq]; omega)
  refine ⟨_, execUnpkb_eq_next.2 ⟨i, _, hidx, hreg, rfl⟩, ?_, atUnpkb_afterUnpkb hp, ?_, fun k hk => ?_⟩
  · rw [afterUnpkb_st]
    exact hst
  · intro k hk
    rw [afterUnpkb_q]
    exact hq k hk
  · rw [afterUnpkb_out, State.setOut_out, Memory.read_write, unpacked_bswap32_word]
    split_ifs with hki
    · rw [hki]
    · exact hout k (by omega)

/-- FINAL leads from the State `v` to its serialisation in OUT (R53, R92). -/
theorem reaches_final (v : Quad Word) :
    Reaches (FinalSwapping v 0) (List.replicate 4 .fswap ++ List.replicate 16 .unpkb) (FinalUnpacking v 16) := by
  have hswap := Reaches.replicate (P := FinalSwapping v) (n := 4) fun _ hi => finalSwapping_step v hi
  have hunpack := Reaches.replicate (P := FinalUnpacking v) (n := 16) fun _ hi => finalUnpacking_step v hi
  refine hswap.trans (hunpack.mono ?_ fun _ h => h)
  rintro s ⟨hst, hat, hq⟩
  exact ⟨hst, hat, hq, fun k hk => absurd hk k.not_lt_zero⟩

/-- Settles O55: the two loops of FINAL, read off at their end. -/
theorem digestSerialisation : Obligations.DigestSerialisation := by
  intro s v hp hidx hst hu
  have hstart : FinalSwapping v 0 s := ⟨hst, ⟨hp, hidx⟩, fun k hk => absurd hk k.not_lt_zero⟩
  obtain ⟨t, hrun, hst', hdone, -, hout⟩ := (reaches_final v).run_eq hstart 20 rfl hu
  refine ⟨t, hrun, hdone, hst'.trans hst.symm, fun i hi p hp => ⟨_, Quad.get?_eq_word v hi, ?_⟩⟩
  have hdiv : (4 * i + p) / 4 = i := by omega
  have hmod : (4 * i + p) % 4 = p := by omega
  rw [hout _ (by omega), digestByte, hdiv, hmod, byteLane_eq_ofNat]

end Sys2Proof.Machine
end

section
/-! PROOF. O52: INIT, PACK and SWAP as a run; after each micro-operation the words of W are a function of the message and
of the element counter alone (R51, R92, R104). -/

namespace Sys2Proof.Machine

variable {s s' : State} {b : List Byte}

/-- `W[0..k-1]` hold the values of `f`. -/
def HoldsWords (f : Nat → Word) (k : Nat) (s : State) : Prop := ∀ w < k, Memory.read s.w w = some (f w)

/-- One word stored is one value of `f` changed. -/
theorem HoldsWords.write {f : Nat → Word} {k : Nat} (h : HoldsWords f k s) (i : Nat) (x : Word) :
    HoldsWords (Function.update f i x) k (s.setW (Memory.write s.w i x)) := by
  intro w hw
  rw [State.setW_w, Memory.read_write, Function.update_apply]
  split_ifs
  · rfl
  · exact h w hw

/-- The host has started the message `b`: what INIT finds, whatever the host does later. -/
def AtInit (b : List Byte) (s : State) : Prop :=
  s.phase = Phase.init ∧ s.n = some b.length ∧ b.length ≤ Config.maxBytes ∧ holdsMessage s b

/-- What INIT leaves and no micro-operation of PACK or SWAP touches: the message, its lengths and the initial State
(R27, R44, R241). -/
def Prepared (b : List Byte) (s : State) : Prop :=
  s.n = some b.length ∧ b.length ≤ Config.maxBytes ∧ holdsMessage s b ∧ s.len = some (bitLength b) ∧
    s.nwm = some (ceil4 b.length) ∧ s.nw = some (paddedWords b.length) ∧ s.nb = some (paddedBlocks b.length) ∧
    s.st = initialState.valued

/-- The sequencer is about to swap word `i` of `nwm`, or done with them (R252). -/
def AtBswap (nwm i : Nat) (s : State) : Prop :=
  if i < nwm then s.phase = Phase.swap ∧ s.idx = some i else s.phase = Phase.padbit

/-- The sequencer is about to pack byte `i` of `n`, or done with them (R251). -/
def AtPackb (n i : Nat) (s : State) : Prop :=
  if i < n then s.phase = Phase.pack ∧ s.idx = some i else AtBswap (ceil4 n) 0 s

/-- The words of W after `i` PACKB: the first `i` bytes in big-endian placement (R50). -/
def packedWord (b : List Byte) (i : Nat) : Nat → Word := bigWord (b.take i)

/-- The words of W after PACK and `i` BSWAP. -/
def swappedWord (b : List Byte) (i w : Nat) : Word := if w < i then littleWord b w else bigWord b w

/-- After INIT and `i` PACKB. -/
def Packing (b : List Byte) (i : Nat) (s : State) : Prop :=
  Prepared b s ∧ AtPackb b.length i s ∧ HoldsWords (packedWord b i) (paddedWords b.length) s

/-- After INIT, PACK and `i` BSWAP. -/
def Swapping (b : List Byte) (i : Nat) (s : State) : Prop :=
  Prepared b s ∧ AtBswap (ceil4 b.length) i s ∧ HoldsWords (swappedWord b i) (paddedWords b.length) s

/-! ### One more byte, one more word -/

theorem packedWord_zero (b : List Byte) (w : Nat) : packedWord b 0 w = 0#32 := bigWord_take_zero b w

theorem packedWord_length (b : List Byte) : packedWord b b.length = swappedWord b 0 := by
  funext w
  rw [packedWord, List.take_length, swappedWord, if_neg w.not_lt_zero]

theorem packedWord_succ (b : List Byte) (i : Nat) : packedWord b (i + 1) =
    Function.update (packedWord b i) (codecWord i)
      (packedWord b i (codecWord i) ||| byteAt (byteOr0 b i) (codecShift i)) := by
  funext w
  rw [Function.update_apply, packedWord, bigWord_take_succ]
  split_ifs with hw
  · rw [hw, packedWord]
  · rfl

theorem swappedWord_succ (b : List Byte) (i : Nat) :
    swappedWord b (i + 1) = Function.update (swappedWord b i) i (bswap32 (swappedWord b i i)) := by
  funext w
  have hi : swappedWord b i i = bigWord b i := if_neg (Nat.lt_irrefl i)
  rw [Function.update_apply, hi, bswap32_bigWord, swappedWord]
  split_ifs with hlt hw hw
  · rw [hw]
  · exact (if_pos (by omega)).symm
  · omega
  · exact (if_neg (by omega)).symm

/-! ### The sequencer -/

theorem atBswap_afterBswap {nwm i : Nat} (hp : s.phase = Phase.swap) : AtBswap nwm (i + 1) (afterBswap nwm i s) := by
  unfold AtBswap afterBswap
  by_cases hi : i + 1 < nwm
  · rw [if_pos hi, if_pos hi]
    exact ⟨hp, rfl⟩
  · rw [if_neg hi, if_neg hi]
    rfl

/-- A message that is not empty has a word to swap. -/
theorem atBswap_zero {n : Nat} (hn : 0 < n) (hp : s.phase = Phase.swap) (hidx : s.idx = some 0) :
    AtBswap (ceil4 n) 0 s := by
  have hpos : 0 < ceil4 n := by unfold ceil4; omega
  rw [AtBswap, if_pos hpos]
  exact ⟨hp, hidx⟩

theorem atPackb_afterPackb {n i : Nat} (hi : i < n) (hp : s.phase = Phase.pack) :
    AtPackb n (i + 1) (afterPackb n i s) := by
  unfold AtPackb afterPackb
  by_cases hlt : i + 1 < n
  · rw [if_pos hlt, if_pos hlt]
    exact ⟨hp, rfl⟩
  · rw [if_neg hlt, if_neg hlt]
    exact atBswap_zero (by omega) rfl rfl

/-- After INIT comes PACK, or the padding at once when the message is empty (R250). -/
theorem atPackb_afterInit (n : Nat) (s : State) : AtPackb n 0 (afterInit n s) := by
  unfold AtPackb
  split_ifs with hpos
  · exact ⟨if_pos hpos, rfl⟩
  · obtain rfl : n = 0 := by omega
    rfl

/-! ### INIT, PACK and SWAP -/

theorem Prepared.afterPackb (h : Prepared b s) (m : Memory 32) (i : Nat) :
    Prepared b (afterPackb b.length i (s.setW m)) := by
  simpa [Prepared, holdsMessage] using h

theorem Prepared.afterBswap (h : Prepared b s) (m : Memory 32) (n i : Nat) :
    Prepared b (afterBswap n i (s.setW m)) := by
  simpa [Prepared, holdsMessage] using h

theorem reaches_init (b : List Byte) : Reaches (AtInit b) [.init] (Packing b 0) := by
  refine Reaches.microOp Phase.init rfl (by decide) (fun _ _ h => h) (fun s ⟨hp, _⟩ => hp) ?_
  rintro s ⟨hp, hn, hmax, hmsg⟩
  refine ⟨_, execInit_eq_next.2 ⟨_, hn, hmax, rfl⟩, ?_, atPackb_afterInit _ _, fun w hw => ?_⟩
  · exact ⟨hn, hmax, hmsg, rfl, rfl, rfl, congrArg some (paddedWords_div _), rfl⟩
  · rw [packedWord_zero]
    show Memory.read (Memory.zeroBelow s.w _) w = _
    rw [Memory.read_zeroBelow, if_pos hw]

/-- PACKB `i` ORs byte `i` into its word. -/
theorem packing_step (b : List Byte) {i : Nat} (hi : i < b.length) :
    Reaches (Packing b i) [.packb] (Packing b (i + 1)) := by
  have hat : ∀ s, Packing b i s → s.phase = Phase.pack ∧ s.idx = some i := by
    rintro s ⟨-, hat, -⟩
    rwa [AtPackb, if_pos hi] at hat
  refine Reaches.microOp Phase.pack rfl (by decide) (fun _ _ h => h) (fun s h => (hat s h).1) fun s h => ?_
  obtain ⟨hp, hidx⟩ := hat s h
  obtain ⟨hprep, -, hw⟩ := h
  have ⟨hn, _, hmsg, _⟩ := hprep
  refine ⟨_, execPackb_eq_next.2 ⟨i, _, _, _, hidx, hmsg i hi, hw _ (codecWord_lt_paddedWords hi), hn, rfl⟩,
    hprep.afterPackb _ i, atPackb_afterPackb hi hp, fun w hlt => ?_⟩
  rw [packedWord_succ, afterPackb_w]
  exact hw.write _ _ w hlt

/-- BSWAP `i` turns word `i` into the little-endian domain (R102). -/
theorem swapping_step (b : List Byte) {i : Nat} (hi : i < ceil4 b.length) :
    Reaches (Swapping b i) [.bswap] (Swapping b (i + 1)) := by
  have hat : ∀ s, Swapping b i s → s.phase = Phase.swap ∧ s.idx = some i := by
    rintro s ⟨-, hat, -⟩
    rwa [AtBswap, if_pos hi] at hat
  refine Reaches.microOp Phase.swap rfl (by decide) (fun _ _ h => h) (fun s h => (hat s h).1) fun s h => ?_
  obtain ⟨hp, hidx⟩ := hat s h
  obtain ⟨hprep, -, hw⟩ := h
  have ⟨_, _, _, _, hnwm, _⟩ := hprep
  refine ⟨_, execBswap_eq_next.2 ⟨i, _, _, hidx, hw i (hi.trans_le (ceil4_le_paddedWords _)), hnwm, rfl⟩,
    hprep.afterBswap _ _ i, atBswap_afterBswap hp, fun w hlt => ?_⟩
  rw [swappedWord_succ, afterBswap_w]
  exact hw.write _ _ w hlt

/-- After the last byte PACK is over and no word is swapped yet. -/
theorem Packing.swapping (h : Packing b b.length s) : Swapping b 0 s := by
  obtain ⟨hprep, hat, hw⟩ := h
  rw [AtPackb, if_neg (Nat.lt_irrefl _)] at hat
  rw [packedWord_length] at hw
  exact ⟨hprep, hat, hw⟩

/-- INIT and PACK (R92). -/
theorem reaches_pack (b : List Byte) :
    Reaches (AtInit b) ([.init] ++ List.replicate b.length .packb) (Packing b b.length) :=
  (reaches_init b).trans (Reaches.replicate (P := Packing b) fun _ hi => packing_step b hi)

/-- INIT, PACK and SWAP (R92). -/
theorem reaches_swap (b : List Byte) :
    Reaches (AtInit b) ([.init] ++ List.replicate b.length .packb ++ List.replicate (ceil4 b.length) .bswap)
      (Swapping b (ceil4 b.length)) :=
  (reaches_pack b).trans ((Reaches.replicate (P := Swapping b) fun _ hi => swapping_step b hi).mono
    (fun _ h => h.swapping) fun _ h => h)

/-! ### What PACK and SWAP leave -/

theorem Started.atInit (h : Started s b) : AtInit b s := by
  obtain ⟨hp, hn, hmax, hmsg, -⟩ := h
  exact ⟨hp, hn, hmax, hmsg⟩

theorem Started.undisturbed_of_le (h : Started s b) {k : Nat} (hk : k ≤ runLength b.length) : undisturbed s k := by
  obtain ⟨-, -, -, -, hu⟩ := h
  exact hu.mono hk

theorem bytesToWords_getElem? {w : Nat} (hw : w < ceil4 b.length) : (bytesToWords b)[w]? = some (bigWord b w) := by
  simp [bytesToWords, hw]

theorem bytesToWords_length (b : List Byte) : (bytesToWords b).length = ceil4 b.length := by simp [bytesToWords]

/-- A byte in lane 0 is the byte itself, as a word. -/
theorem byteAt_lane_zero (b : Byte) : byteAt b 0 = b.setWidth 32 := BitVec.shiftLeft_zero _

/-- Settles O52: the predicates of PACK and of SWAP at their last element. -/
theorem packedAndSwappedWords : Obligations.PackedAndSwappedWords := by
  intro s b h
  have hcap := ceil4_le_paddedWords b.length
  refine ⟨bytesToWords_length b, fun w hw => ?words, ?pack, ?swap⟩
  case words => rw [bytesToWords_getElem? hw, bigWord, byteAt_lane_zero]; rfl
  case pack =>
    have hu := h.undisturbed_of_le (k := 1 + b.length) (by unfold runLength; omega)
    obtain ⟨t, hrun, -, -, hw⟩ := (reaches_pack b).run_eq h.atInit _
      (by simp only [List.length_append, List.length_singleton, List.length_replicate]) hu
    refine ⟨t, hrun, fun w hlt => ?_⟩
    rw [hw w (hlt.trans_le hcap), bytesToWords_getElem? hlt, packedWord, List.take_length]
  case swap =>
    have hu := h.undisturbed_of_le (k := 1 + b.length + ceil4 b.length) (by unfold runLength; omega)
    obtain ⟨t, hrun, -, -, hw⟩ := (reaches_swap b).run_eq h.atInit _
      (by simp only [List.length_append, List.length_singleton, List.length_replicate]) hu
    refine ⟨t, hrun, fun w (hlt : w < ceil4 b.length) => ?_⟩
    rw [hw w (hlt.trans_le hcap), swappedWord, if_pos hlt, littleWord, byteAt_lane_zero]
    rfl

end Sys2Proof.Machine
end

section
/-! PROOF. O1 to O4: a micro-operation word is its phase code followed by its low field, and the decoder is the encoder
read backwards (R80 to R90). -/

namespace Sys2Proof.Machine

variable {i : Instr}

/-! ### The two fields of a word -/

theorem phaseField_toNat (u : BitVec 10) : (phaseField u).toNat = u.toNat / 64 := by
  have hlt := u.isLt
  rw [phaseField, BitVec.extractLsb'_toNat, Nat.shiftRight_eq_div_pow]
  omega

theorem lowField_toNat (u : BitVec 10) : (lowField u).toNat = u.toNat % 64 := by
  rw [lowField, BitVec.extractLsb'_toNat, Nat.shiftRight_zero]

/-- The two fields are the whole word (R80). -/
theorem phaseField_append_lowField (u : BitVec 10) : phaseField u ++ lowField u = u := by
  apply BitVec.eq_of_toNat_eq
  rw [BitVec.toNat_append, ← Nat.shiftLeft_add_eq_or_of_lt (lowField u).isLt, Nat.shiftLeft_eq, phaseField_toNat,
    lowField_toNat]
  omega

theorem phaseField_eq_iff (u : BitVec 10) (p : BitVec 4) : phaseField u = p ↔ u.toNat / 64 = p.toNat := by
  rw [BitVec.toNat_eq, phaseField_toNat]

theorem lowField_eq_iff (u : BitVec 10) (t : BitVec 6) : lowField u = t ↔ u.toNat % 64 = t.toNat := by
  rw [BitVec.toNat_eq, lowField_toNat]

/-! ### The decoder reads back what the encoder writes -/

theorem encode_stepInstr (t : BitVec 6) : encode (stepInstr t) = .uop (7#4 ++ t) := by
  revert t; decide

theorem decode_encode (i : Instr) : decode (encode i) = .ok i := by
  rcases Instr.kinds i with ⟨t, rfl⟩ | rfl | rfl | rfl | rfl | rfl | rfl | rfl | rfl | rfl | rfl | rfl
  · rw [encode_stepInstr, decode, decodeUop_step]
  all_goals rfl

theorem encode_of_formatU {p : Nat} (h : formatU p = .ok i) : encode i = .uop (BitVec.ofNat 4 p ++ 0#6) := by
  unfold formatU at h
  split at h <;> cases h <;> rfl

theorem encode_of_decodeUop {u : BitVec 10} (h : decodeUop u = .ok i) : encode i = .uop u := by
  unfold decodeUop at h
  split_ifs at h with h7 h0
  · cases h
    rw [encode_stepInstr, ← h7, phaseField_append_lowField]
  · rw [encode_of_formatU h, BitVec.ofNat_toNat, BitVec.setWidth_eq, ← h0, phaseField_append_lowField]

theorem encode_of_decodeCmd {c : BitVec 2} (h : decodeCmd c = .ok i) : encode i = .cmd c := by
  unfold decodeCmd at h
  split at h
  next hc =>
    cases h
    obtain rfl : c = 0#2 := BitVec.eq_of_toNat_eq hc
    rfl
  next hc =>
    cases h
    obtain rfl : c = 1#2 := BitVec.eq_of_toNat_eq hc
    rfl
  next => cases h

/-- Settles O1: each instruction by its kind, each word by the branch of the decoder that accepts it. -/
theorem decodeEncodeInverse : Obligations.DecodeEncodeInverse := by
  refine ⟨decode_encode, fun c i h => ?_⟩
  cases c with
  | uop u => exact encode_of_decodeUop h
  | cmd c => exact encode_of_decodeCmd h

/-! ### The reserved words -/

theorem formatU_eq_error_iff {p : Nat} : formatU p = .error .reservedUop ↔ p ∉ [1, 2, 3, 4, 5, 6, 8, 9, 10] := by
  unfold formatU
  split <;> simp_all

/-- The decoder rejects a word unless it is of format S, or of format U with zero low bits (R81, R82, R87). -/
theorem decodeUop_eq_error_iff (u : BitVec 10) : decodeUop u = .error .reservedUop ↔
    u.toNat / 64 ≠ 7 ∧ (u.toNat % 64 = 0 → u.toNat / 64 ∉ [1, 2, 3, 4, 5, 6, 8, 9, 10]) := by
  unfold decodeUop
  split_ifs with hs hl <;> rw [phaseField_eq_iff] at hs
  · simp [hs]
  · rw [lowField_eq_iff] at hl
    rw [formatU_eq_error_iff, phaseField_toNat]
    exact ⟨fun h => ⟨hs, fun _ => h⟩, fun ⟨_, h⟩ => h hl⟩
  · rw [lowField_eq_iff] at hl
    exact ⟨fun _ => ⟨hs, fun h => absurd h hl⟩, fun _ => rfl⟩

/-- Counting below `m * n`, block after block of `m`. -/
theorem countP_range_mul (p : Nat → Bool) (m n : Nat) : (List.range (m * n)).countP p =
    ((List.range n).map fun q => (List.range m).countP fun r => p (m * q + r)).sum := by
  induction n with
  | zero => rfl
  | succ n ih =>
    rw [Nat.mul_succ, List.range_add, List.countP_append, List.countP_map, ih, List.range_succ, List.map_append,
      List.sum_append]
    rfl

/-- Settles O2: which words by the fields the decoder looks at; how many by counting each phase code's 64 words. -/
theorem reservedUopWords : Obligations.ReservedUopWords := by
  refine ⟨fun u => ?_, ?_⟩
  · have hlt := u.isLt
    rw [decodeUop_eq_error_iff]
    simp only [List.mem_cons, List.not_mem_nil, or_false]
    omega
  · rw [← List.countP_eq_length_filter, countP_range_mul _ 64 16]
    rfl

/-- Settles O3: the decoder computes on each literal word. -/
theorem sampleWords : Obligations.SampleWords :=
  ⟨rfl, rfl, rfl, rfl, rfl, rfl, rfl, rfl, rfl, rfl, rfl, rfl, rfl, rfl, rfl, by decide⟩

/-- Settles O4: each value of CMD is a literal the decoder computes on, and NOP is the identity. -/
theorem commandPort : Obligations.CommandPort := fun _ => ⟨rfl, rfl, rfl, rfl, rfl⟩

end Sys2Proof.Machine
end

section
/-! PROOF. O46: the frame of START and NOP (R86, R240, R285). -/

namespace Sys2Proof.Machine

/-- Settles O46: START takes the exception, which writes PHASE and ERRCODE, or writes ERRCODE and `pc`. -/
theorem frameOfCommands : Obligations.FrameOfCommands := by
  refine fun s t => ⟨fun h => ?start, fun h => ?nop⟩
  case start =>
    obtain ⟨-, ⟨-, rfl⟩ | ⟨hp, n, -, -, rfl⟩⟩ := execStart_eq_next.1 h
    · exact ⟨rfl, ⟨fun _ => rfl, fun _ _ => rfl, fun _ _ => rfl⟩, fun _ => ⟨rfl, rfl, rfl⟩⟩
    · refine ⟨State.setPc_eq .., ⟨fun _ => rfl, fun _ _ => rfl, fun _ _ => rfl⟩, fun hfalse => ?_⟩
      cases hp.symm.trans hfalse
  case nop =>
    cases h
    rfl

end Sys2Proof.Machine
end

section
/-! PROOF. O54: COMPRESS as LOADW, a loop of 64 steps, and FOLD; W and NB stay as they are (R92, R150, R243, R244). -/

namespace Sys2Proof.Machine

variable {s : State} {P Q : State → Prop} {l : List Instr}

/-- What a stretch of a run keeps may be named from the state it starts in. -/
theorem Reaches.of_start (h : ∀ s, P s → ∃ P', P' s ∧ Reaches P' l Q) : Reaches P l Q := by
  intro s m hP hu
  obtain ⟨P', hP', hreach⟩ := h s hP
  exact hreach s m hP' hu

/-- The sequencer is about to load block `k` of `nb`, or done with them (R257). -/
def AtLoadw (nb k : Nat) (s : State) : Prop :=
  if k < nb then s.phase = Phase.load ∧ s.j = some k else s.phase = Phase.fswap ∧ s.idx = some 0

/-- The sequencer is about to issue STEPt, or done with all 64 (R256). -/
def AtStep (t : Nat) (s : State) : Prop :=
  if t < 64 then s.phase = Phase.step ∧ s.t = some (BitVec.ofNat 6 t) else s.phase = Phase.fold

/-- What COMPRESS works on: the words `m` of W, the number of blocks `nb`, and the State `v`. -/
def BlockContext (m : Memory 32) (nb : Nat) (v : Quad Word) (s : State) : Prop :=
  s.w = m ∧ s.nb = some nb ∧ s.st = v.valued

/-- Block `k` before its LOADW. -/
def Loading (m : Memory 32) (nb : Nat) (v : Quad Word) (k : Nat) (s : State) : Prop :=
  BlockContext m nb v s ∧ s.phase = Phase.load ∧ s.j = some k

/-- Block `k`, with message words `M`, after `t` steps. -/
def Stepping (m : Memory 32) (nb : Nat) (v : Quad Word) (k : Nat) (M : Nat → Word) (t : Nat) (s : State) : Prop :=
  BlockContext m nb v s ∧ s.j = some k ∧ AtStep t s ∧ s.wr = (stepsFn M t v).valued

/-- The blocks below `k` are in the State `v`. -/
def Compressed (m : Memory 32) (nb : Nat) (v : Quad Word) (k : Nat) (s : State) : Prop :=
  BlockContext m nb v s ∧ AtLoadw nb k s

/-! ### The sequencer -/

theorem atStep_afterStep {t : Nat} (ht : t < 64) (hp : s.phase = Phase.step) :
    AtStep (t + 1) (afterStep (BitVec.ofNat 6 t) s) := by
  have hnat : (BitVec.ofNat 6 t).toNat = t := by simpa using ht
  unfold AtStep afterStep
  rw [hnat]
  by_cases hlt : t < 63
  · rw [if_pos (by omega), if_pos hlt]
    exact ⟨hp, congrArg some (BitVec.ofNat_add ..).symm⟩
  · rw [if_neg (by omega), if_neg hlt]
    rfl

@[simp] theorem afterStep_j (s : State) (t : BitVec 6) : (afterStep t s).j = s.j := by
  unfold afterStep; split_ifs <;> rfl

theorem atLoadw_afterFold (nb k : Nat) (s : State) : AtLoadw nb (k + 1) (afterFold nb k s) := by
  unfold AtLoadw afterFold
  by_cases hlt : k + 1 < nb
  · rw [if_pos hlt, if_pos hlt]
    exact ⟨rfl, rfl⟩
  · rw [if_neg hlt, if_neg hlt]
    exact ⟨rfl, rfl⟩

/-! ### LOADW, STEPt, FOLD -/

section
variable {m : Memory 32} {nb k : Nat} {v : Quad Word} {M : Nat → Word}

/-- LOADW copies the State into the working registers (R243). -/
theorem loading_loadw (M : Nat → Word) : Reaches (Loading m nb v k) [.loadw] (Stepping m nb v k M 0) := by
  refine Reaches.microOp Phase.load rfl (by decide) (fun _ _ h => h) (fun s ⟨_, hp, _⟩ => hp) ?_
  rintro s ⟨hcontext, hp, hj⟩
  have ⟨_, _, hst⟩ := hcontext
  exact ⟨_, execLoadw_eq_next.2 ⟨v, hst, rfl⟩, hcontext, hj, ⟨rfl, rfl⟩, rfl⟩

/-- STEPt on word `k(t)` of the block (R150). -/
theorem stepping_step (hM : ∀ i < 16, Memory.read m (16 * k + i) = some (M i)) {t : Nat} (ht : t < 64) :
    Reaches (Stepping m nb v k M t) [stepInstr (BitVec.ofNat 6 t)] (Stepping m nb v k M (t + 1)) := by
  have hat : ∀ s, Stepping m nb v k M t s → s.phase = Phase.step ∧ s.t = some (BitVec.ofNat 6 t) := by
    rintro s ⟨-, -, hat, -⟩
    rwa [AtStep, if_pos ht] at hat
  have hnat : (BitVec.ofNat 6 t).toNat = t := by simpa using ht
  refine Reaches.one (fun _ _ h => h) (fun s h => issues_step (hat s h).1 (hat s h).2) fun s h => ?_
  obtain ⟨hp, hcount⟩ := hat s h
  obtain ⟨hcontext, hj, -, hwr⟩ := h
  have ⟨hw, _, _⟩ := hcontext
  have hword : Memory.read s.w (stepWord k (BitVec.ofNat 6 t).toNat) = some (M (wordIndex t)) := by
    rw [hnat, hw]
    exact hM _ (wordIndex_lt t)
  rw [engineStep_step hp hcount]
  refine ⟨_, execStepT_eq_next.2 ⟨_, k, _, hwr, hj, hword, rfl⟩, ?_, ?_, atStep_afterStep ht hp, ?_⟩
  · simpa [BlockContext] using hcontext
  · rw [afterStep_j]
    exact hj
  · rw [afterStep_wr, hnat]
    rfl

/-- FOLD adds the working registers back to the State (R244). -/
theorem stepping_fold : Reaches (Stepping m nb v k M 64) [.fold] (Compressed m nb (compressBlock M v) (k + 1)) := by
  refine Reaches.microOp Phase.fold rfl (by decide) (fun _ _ h => h) (fun s ⟨_, _, hat, _⟩ => hat) ?_
  rintro s ⟨⟨hw, hnb, hst⟩, hj, -, hwr⟩
  refine ⟨_, execFold_eq_next.2 ⟨v, _, k, nb, hst, hwr, hj, hnb, rfl⟩, ?_, atLoadw_afterFold ..⟩
  simp [BlockContext, hw, hnb, compressBlock]

/-- `COMPRESS k` (R92). -/
theorem reaches_block (hM : ∀ i < 16, Memory.read m (16 * k + i) = some (M i)) :
    Reaches (Loading m nb v k) blockTrace (Compressed m nb (compressBlock M v) (k + 1)) := by
  have hsteps := Reaches.loop (P := Stepping m nb v k M) (n := 64) fun _ ht => stepping_step hM ht
  rw [← stepInstrs_eq_flatMap] at hsteps
  exact ((loading_loadw M).trans hsteps).trans stepping_fold

end

/-- Settles O54: the stretch of one block, read off at its end. -/
theorem blockCompression : Obligations.BlockCompression := by
  intro s v M k nb hp hj hnb hst hM hu
  obtain ⟨t, hrun, ⟨hw, -, hst'⟩, hat⟩ :=
    (reaches_block hM).run_eq (s := s) ⟨⟨rfl, hnb, hst⟩, hp, hj⟩ 66 rfl hu
  exact ⟨t, hrun, hst', hw, hat⟩

end Sys2Proof.Machine
end

section
/-! PROOF. O57: PAD, the blocks and FINAL put after INIT, PACK and SWAP: the whole of DIGEST as one stretch, whose
predicates are functions of the message alone (R92, R121 to R124, R262). -/

namespace Sys2Proof.Machine

variable {s : State} {b : List Byte}

/-! ### PAD -/

/-- The words of W after PADBIT. -/
def terminatedWord (b : List Byte) (w : Nat) : Word :=
  if w = 8 * b.length / 32 then littleWord b w ||| 0x80#32 <<< (8 * b.length % 32) else littleWord b w

/-- After PADBIT. -/
def Terminated (b : List Byte) (s : State) : Prop :=
  Prepared b s ∧ s.phase = Phase.padlen ∧ HoldsWords (terminatedWord b) (paddedWords b.length) s

/-- After PADLEN: W holds the padded message, and the first block is about to be loaded. -/
def Padded (b : List Byte) (s : State) : Prop :=
  Prepared b s ∧ s.phase = Phase.load ∧ s.j = some 0 ∧ HoldsWords (paddedWord b) (paddedWords b.length) s

theorem byteOr0_of_le {i : Nat} (h : b.length ≤ i) : byteOr0 b i = 0#8 := List.getD_eq_default _ _ h

/-- A word beyond the message is zero in either placement. -/
theorem bigWord_eq_littleWord {w : Nat} (h : b.length ≤ 4 * w) : bigWord b w = littleWord b w := by
  have hzero : ∀ p, byteOr0 b (4 * w + p) = 0#8 := fun p => byteOr0_of_le (by omega)
  simp [bigWord, littleWord, byteOr0_of_le h, hzero, byteAt_zero]

/-- After SWAP every word is in the little-endian domain: those that BSWAP does not reach are zero (R252). -/
theorem swappedWord_ceil4 (b : List Byte) : swappedWord b (ceil4 b.length) = littleWord b := by
  funext w
  unfold swappedWord
  split_ifs with hw
  · rfl
  · exact bigWord_eq_littleWord (by unfold ceil4 at hw; omega)

theorem terminatedWord_eq (h : b.length ≤ Config.maxBytes) : terminatedWord b =
    Function.update (littleWord b) (padWord (bitLength b))
      (littleWord b (padWord (bitLength b)) ||| padBit (bitLength b)) := by
  funext w
  rw [Function.update_apply, terminatedWord, padWord, padBit, bitLength, len_toNat h]
  split_ifs with hw
  · rw [hw]
  · rfl

theorem paddedWord_eq (b : List Byte) : paddedWord b =
    Function.update (Function.update (terminatedWord b) (paddedWords b.length - 2) (lenLow (bitLength b)))
      (paddedWords b.length - 1) (lenHigh (bitLength b)) := by
  funext w
  rw [Function.update_apply, Function.update_apply, paddedWord, terminatedWord]

/-- PADBIT ORs the terminator into its word (R121). -/
theorem reaches_padbit (b : List Byte) : Reaches (Swapping b (ceil4 b.length)) [.padbit] (Terminated b) := by
  have hat : ∀ s, Swapping b (ceil4 b.length) s → s.phase = Phase.padbit := by
    rintro s ⟨-, hat, -⟩
    rwa [AtBswap, if_neg (Nat.lt_irrefl _)] at hat
  refine Reaches.microOp Phase.padbit rfl (by decide) (fun _ _ h => h) hat ?_
  rintro s ⟨hprep, -, hw⟩
  have ⟨_, hmax, _, hlen, _⟩ := hprep
  rw [swappedWord_ceil4] at hw
  refine ⟨_, execPadbit_eq_next.2 ⟨_, _, hlen, hw _ (padWord_lt_paddedWords hmax), rfl⟩, hprep, rfl, ?_⟩
  rw [terminatedWord_eq hmax]
  exact hw.write _ _

/-- PADLEN stores the length in the last two words (R123). -/
theorem reaches_padlen (b : List Byte) : Reaches (Terminated b) [.padlen] (Padded b) := by
  refine Reaches.microOp Phase.padlen rfl (by decide) (fun _ _ h => h) (fun s ⟨_, hp, _⟩ => hp) ?_
  rintro s ⟨hprep, -, hw⟩
  have ⟨_, _, _, hlen, _, hnw, _⟩ := hprep
  have hge := bits_div_lt_paddedWords b.length
  refine ⟨_, execPadlen_eq_next.2 ⟨_, _, hlen, hnw, by omega, .inl ⟨_, hw _ (by omega)⟩, .inl ⟨_, hw _ (by omega)⟩, rfl⟩,
    hprep, rfl, rfl, ?_⟩
  rw [paddedWord_eq]
  exact (hw.write _ _).write _ _

/-- INIT, PACK, SWAP and PAD (R92). -/
theorem reaches_pad (b : List Byte) :
    Reaches (AtInit b) ([.init] ++ List.replicate b.length .packb ++ List.replicate (ceil4 b.length) .bswap ++
      [.padbit, .padlen]) (Padded b) :=
  (reaches_swap b).trans ((reaches_padbit b).trans (reaches_padlen b))

/-! ### The blocks -/

/-- W holds the padded message, and its blocks below `k` are in the State. -/
def Compressing (b : List Byte) (k : Nat) (s : State) : Prop :=
  HoldsWords (paddedWord b) (paddedWords b.length) s ∧
    Compressed s.w (paddedBlocks b.length) (stateAfterBlocks b k) k s

theorem Padded.compressing (h : Padded b s) : Compressing b 0 s := by
  obtain ⟨⟨_, _, _, _, _, _, hnb, hst⟩, hp, hj, hw⟩ := h
  refine ⟨hw, ⟨rfl, hnb, hst⟩, ?_⟩
  rw [AtLoadw, if_pos (paddedBlocks_pos _)]
  exact ⟨hp, hj⟩

/-- `COMPRESS k` takes block `k` of the padded message into the State (R262). -/
theorem compressing_block (b : List Byte) {k : Nat} (hk : k < paddedBlocks b.length) :
    Reaches (Compressing b k) blockTrace (Compressing b (k + 1)) := by
  refine Reaches.of_start ?_
  rintro s ⟨hwords, hcontext, hat⟩
  rw [AtLoadw, if_pos hk] at hat
  have hM : ∀ i < 16, Memory.read s.w (16 * k + i) = some (paddedWord b (16 * k + i)) := fun i hi =>
    hwords _ (by rw [paddedWords_eq]; omega)
  refine ⟨_, ⟨hcontext, hat⟩, (reaches_block hM).mono (fun _ h => h) ?_⟩
  rintro t ⟨⟨hw, hrest⟩, hat'⟩
  refine ⟨?_, ⟨rfl, hrest⟩, hat'⟩
  rwa [HoldsWords, hw]

/-- Every `COMPRESS` (R92). -/
theorem reaches_compress (b : List Byte) :
    Reaches (Padded b) (repeated (paddedBlocks b.length) blockTrace) (Compressing b (paddedBlocks b.length)) := by
  rw [repeated_eq_flatMap]
  exact (Reaches.loop (P := Compressing b) fun _ hk => compressing_block b hk).mono (fun _ h => h.compressing)
    fun _ h => h

theorem Compressing.finalSwapping (h : Compressing b (paddedBlocks b.length) s) :
    FinalSwapping (stateAfterBlocks b (paddedBlocks b.length)) 0 s := by
  obtain ⟨-, ⟨-, -, hst⟩, hat⟩ := h
  rw [AtLoadw, if_neg (Nat.lt_irrefl _)] at hat
  exact ⟨hst, hat, fun k hk => absurd hk k.not_lt_zero⟩

/-! ### The whole run -/

/-- `DIGEST` leads from INIT to the State of the whole message, serialised in OUT (R92, R262). -/
theorem reaches_digest (b : List Byte) : Reaches (AtInit b) (runTrace b.length)
    (FinalUnpacking (stateAfterBlocks b (paddedBlocks b.length)) 16) := by
  rw [runTrace, List.append_assoc]
  exact ((reaches_pad b).trans (reaches_compress b)).trans
    ((reaches_final _).mono (fun _ h => h.finalSwapping) fun _ h => h)

theorem repeated_length (k : Nat) (l : List Instr) : (repeated k l).length = k * l.length := by
  rw [repeated_eq_flatMap]
  simp

/-- The length of DIGEST (R261). -/
theorem runTrace_length (n : Nat) : (runTrace n).length = runLength n := by
  have hblock : blockTrace.length = 66 := rfl
  simp only [runTrace, List.length_append, List.length_replicate, List.length_cons, List.length_nil, repeated_length,
    hblock, runLength]
  omega

/-- Settles O57: the stretch of the whole run says what each state on the way issues. -/
theorem runIssuesTrace : Obligations.RunIssuesTrace := by
  intro s b h
  refine ⟨runTrace_length _, ?_⟩
  have hu := h.undisturbed_of_le (runTrace_length b.length).le
  obtain ⟨-, hissues⟩ := reaches_digest b s 0 h.atInit hu
  exact hissues

end Sys2Proof.Machine
end

section
/-! PROOF. O11 to O14: `bswap32` lane by lane, the results of BSWAP and UNPKB, and the two functions of the codec
undoing each other (R102 to R107). -/

namespace Sys2Proof.Machine

/-! ### The laws of `bswap32` (R102, R107) -/

/-- R102's own formula for the swapped word: lane 0 is not shifted. -/
theorem bswap32_eq_shifted_lanes (x : Word) : bswap32 x =
    (x.extractLsb' 0 8).setWidth 32 <<< 24 ||| (x.extractLsb' 8 8).setWidth 32 <<< 16 |||
      (x.extractLsb' 16 8).setWidth 32 <<< 8 ||| (x.extractLsb' 24 8).setWidth 32 := by
  rw [bswap32, byteAt_lane_zero]
  rfl

theorem bswap32_of_equal_lanes {x : Word} (h : ∀ p < 4, byteLane x p = byteLane x 0) : bswap32 x = x := by
  refine eq_of_lanes fun p hp => ?_
  rw [byteLane_bswap32 x p hp, h _ (by omega), h p hp]

theorem bswap32_bijective : Function.Bijective bswap32 := Function.Involutive.bijective bswap32_bswap32

/-- An operation that works on each lane by itself commutes with the reversal of the lanes (R107). -/
theorem bswap32_lanewise {f : Word → Word → Word} {g : Byte → Byte → Byte}
    (hf : ∀ x y p, byteLane (f x y) p = g (byteLane x p) (byteLane y p)) (x y : Word) :
    bswap32 (f x y) = f (bswap32 x) (bswap32 y) := by
  refine eq_of_lanes fun p hp => ?_
  rw [byteLane_bswap32 _ p hp, hf, hf, byteLane_bswap32 x p hp, byteLane_bswap32 y p hp]

theorem bswap32_and (x y : Word) : bswap32 (x &&& y) = bswap32 x &&& bswap32 y :=
  bswap32_lanewise (fun _ _ _ => BitVec.extractLsb'_and) x y

theorem bswap32_or (x y : Word) : bswap32 (x ||| y) = bswap32 x ||| bswap32 y := bswap32_lanewise byteLane_or x y

theorem bswap32_xor (x y : Word) : bswap32 (x ^^^ y) = bswap32 x ^^^ bswap32 y :=
  bswap32_lanewise (fun _ _ _ => BitVec.extractLsb'_xor) x y

/-- NOT32 is XOR with the word of ones, which the swap leaves alone. -/
theorem bswap32_not (x : Word) : bswap32 (~~~x) = ~~~(bswap32 x) := by
  have hones : bswap32 (BitVec.allOnes 32) = BitVec.allOnes 32 := by decide
  rw [← BitVec.xor_allOnes, bswap32_xor, hones, BitVec.xor_allOnes]

/-- Settles O11: the result by BSWAP's inversion lemma, the corner cases by lanes. -/
theorem bswapResult : Obligations.BswapResult := by
  refine ⟨rfl, fun s i m x hi hm hx => ?_, fun _ => bswap32_of_equal_lanes, rfl, bswap32_bswap32⟩
  rw [← bswap32_eq_shifted_lanes]
  exact execBswap_eq_next.2 ⟨i, x, m, hi, hx, hm, rfl⟩

/-- Settles O12: the result by UNPKB's inversion lemma. -/
theorem unpkbResult : Obligations.UnpkbResult :=
  ⟨rfl, fun _ i x hi _ hx => execUnpkb_eq_next.2 ⟨i, x, hi, hx, rfl⟩⟩

/-- Settles O13: the laws lane by lane; a carry into the next lane, and a bit rotated into it, tell the two orders
apart. -/
theorem byteSwapLaws : Obligations.ByteSwapLaws :=
  ⟨byteLane_bswap32, bswap32_bswap32, bswap32_bijective,
    fun x y => ⟨bswap32_and x y, bswap32_or x y, bswap32_xor x y, bswap32_not x⟩,
    ⟨0x80#32, 0x80#32, by decide⟩, ⟨1#32, 8, by decide⟩⟩

/-! ### The round trip of the codec (R104 to R106) -/

/-- A byte sequence and enough zeros, written by indices. -/
theorem map_byteOr0_range (b : List Byte) {m : Nat} (h : b.length ≤ m) :
    (List.range m).map (byteOr0 b) = b ++ List.replicate (m - b.length) 0#8 := by
  refine List.ext_getElem (by simp; omega) fun i _ _ => ?_
  rw [List.getElem_map, List.getElem_range]
  by_cases hi : i < b.length
  · rw [List.getElem_append_left hi, byteOr0, List.getD_eq_getElem _ _ hi]
  · rw [List.getElem_append_right (by omega), List.getElem_replicate, byteOr0_of_le (by omega)]

theorem wordsToBytes_length (x : List Word) : (wordsToBytes x).length = 4 * x.length := by simp [wordsToBytes]

/-- Byte `i` of the stream is lane `3 - (i mod 4)` of word `i div 4` (R105). -/
theorem wordsToBytes_eq_lanes (x : List Word) : wordsToBytes x =
    (List.range (4 * x.length)).map fun i => byteLane (x.getD (i / 4) 0#32) (3 - i % 4) := by
  refine List.map_congr_left fun i _ => ?_
  rw [← byteLane_of_shift, ← codecShift_eq_lane, codecShift_eq]

theorem byteOr0_wordsToBytes (x : List Word) {w q : Nat} (hw : w < x.length) (hq : q < 4) :
    byteOr0 (wordsToBytes x) (4 * w + q) = byteLane x[w] (3 - q) := by
  have hdiv : (4 * w + q) / 4 = w := by omega
  have hmod : (4 * w + q) % 4 = q := by omega
  rw [byteOr0, wordsToBytes_eq_lanes, List.getD_eq_getElem _ _ (by simp; omega), List.getElem_map, List.getElem_range,
    hdiv, hmod, List.getD_eq_getElem _ _ hw]

theorem bytesToWords_wordsToBytes (x : List Word) : bytesToWords (wordsToBytes x) = x := by
  have hlen : (bytesToWords (wordsToBytes x)).length = x.length := by
    rw [bytesToWords_length, wordsToBytes_length, ceil4]
    omega
  refine List.ext_getElem hlen fun w _ hw => eq_of_lanes fun p hp => ?_
  have hlane : 3 - (3 - p) = p := by omega
  simp only [bytesToWords, List.getElem_map, List.getElem_range]
  rw [byteLane_bigWord _ _ _ hp, byteOr0_wordsToBytes x hw (by omega), hlane]

/-- The bytes come back with the zeros that filled the last word (R106). -/
theorem wordsToBytes_bytesToWords (b : List Byte) :
    wordsToBytes (bytesToWords b) = b ++ List.replicate (4 * ceil4 b.length - b.length) 0#8 := by
  rw [← map_byteOr0_range b (by unfold ceil4; omega), wordsToBytes_eq_lanes, bytesToWords_length]
  refine List.map_congr_left fun i hi => ?_
  have hw : i / 4 < ceil4 b.length := by have := List.mem_range.1 hi; omega
  have hbyte : 4 * (i / 4) + (3 - (3 - i % 4)) = i := by omega
  rw [List.getD_eq_getElem?_getD, bytesToWords_getElem? hw, Option.getD_some, byteLane_bigWord _ _ _ (by omega), hbyte]

/-- Settles O14: both round trips lane by lane; a whole number of words leaves no zeros to add. -/
theorem codecRoundTrip : Obligations.CodecRoundTrip := by
  refine ⟨fun b hb => ?whole, wordsToBytes_bytesToWords, bytesToWords_wordsToBytes, bytesToWords_length,
    wordsToBytes_length⟩
  have hfull : 4 * ceil4 b.length - b.length = 0 := by unfold ceil4; omega
  rw [wordsToBytes_bytesToWords, hfull, List.replicate_zero, List.append_nil]

end Sys2Proof.Machine
end

section
/-! PROOF. O15, O16: the results of PADBIT and PADLEN; the terminator and the halves of the length as numbers (R121, R123,
R125, R253, R254). -/

namespace Sys2Proof.Machine

/-- The terminator of a whole number of bytes stands at the top of a byte lane (R125). -/
theorem terminator_mem {L : Nat} (hL : L % 8 = 0) :
    0x80#32 <<< (L % 32) ∈ [0x00000080#32, 0x00008000#32, 0x00800000#32, 0x80000000#32] := by
  have hshift : L % 32 = 0 ∨ L % 32 = 8 ∨ L % 32 = 16 ∨ L % 32 = 24 := by omega
  rcases hshift with h | h | h | h <;> rw [h] <;> decide

/-- The terminator goes into the last word that holds message bytes, or behind it when that word is full (R121). -/
theorem terminatorWord_eq (n : Nat) : 8 * n / 32 = if n % 4 = 0 then ceil4 n else ceil4 n - 1 := by
  unfold ceil4
  split_ifs <;> omega

/-- Settles O15: the result by PADBIT's inversion lemma, the rest arithmetic on the terminator's place. -/
theorem padbitResult : Obligations.PadbitResult :=
  ⟨rfl, fun _ L x hL hx => execPadbit_eq_next.2 ⟨L, x, hL, hx, rfl⟩, fun _ => terminator_mem,
    fun n => ⟨Nat.le_sub_of_add_le (bits_div_lt_paddedWords n), terminatorWord_eq n⟩⟩

theorem lenLow_eq_ofNat (L : BitVec 64) : lenLow L = BitVec.ofNat 32 (L.toNat % 2 ^ 32) := by
  apply BitVec.eq_of_toNat_eq
  rw [lenLow, BitVec.extractLsb'_toNat, Nat.shiftRight_zero, BitVec.toNat_ofNat, Nat.mod_mod]

theorem lenHigh_eq_ofNat (L : BitVec 64) : lenHigh L = BitVec.ofNat 32 (L.toNat / 2 ^ 32) := by
  rw [← Nat.shiftRight_eq_div_pow]
  rfl

/-- Settles O16: the result by PADLEN's inversion lemma, the halves of `L` as numbers. -/
theorem padlenResult : Obligations.PadlenResult := by
  refine ⟨rfl, fun s L nw hL hnw hge hlow hhigh => ?_⟩
  rw [← lenLow_eq_ofNat, ← lenHigh_eq_ofNat]
  exact execPadlen_eq_next.2 ⟨L, nw, hL, hnw, hge, hlow, hhigh, rfl⟩

end Sys2Proof.Machine
end

section
/-! PROOF. O18, O53: the padded message byte by byte: the terminator is one byte in its lane, in either domain, and the
last two words are the bytes of the length, least significant first (R124, R127). -/

namespace Sys2Proof.Machine

/-! ### The terminator as a byte -/

/-- Behind `n` bytes the terminator is the byte 0x80 in lane `n mod 4` (R121). -/
theorem terminator_eq_byteAt (n : Nat) : 0x80#32 <<< (8 * n % 32) = byteAt 0x80#8 (8 * (n % 4)) := by
  have hlane : 8 * n % 32 = 8 * (n % 4) := by omega
  rw [hlane]
  rfl

/-- In the big-endian domain it is in the opposite lane, `3 - (n mod 4)` (R127). -/
theorem bigTerminator_eq_byteAt (n : Nat) : 0x80#32 <<< (24 - 8 * n % 32) = byteAt 0x80#8 (8 * (3 - n % 4)) := by
  have hlane : 24 - 8 * n % 32 = 8 * (3 - n % 4) := by omega
  rw [hlane]
  rfl

/-- The swap takes a byte to the opposite lane (R107). -/
theorem bswap32_byteAt (c : Byte) {q : Nat} (hq : q < 4) : bswap32 (byteAt c (8 * (3 - q))) = byteAt c (8 * q) := by
  refine eq_of_lanes fun p hp => ?_
  rw [byteLane_bswap32 _ p hp, byteLane_byteAt c _ _ (by omega) (by omega), byteLane_byteAt c p q hp hq]
  exact if_congr (by omega) rfl rfl

/-- Settles O18: the swap undoes itself on the length words and takes the terminator's byte to its lane. -/
theorem bigEndianPaddingAgrees : Obligations.BigEndianPaddingAgrees := by
  intro b w _
  rw [bigPaddedWord, paddedWord]
  split_ifs
  case pos => exact bswap32_bswap32 _
  case pos => exact bswap32_bswap32 _
  case pos =>
    rw [bswap32_or, bswap32_bigWord, bigTerminator_eq_byteAt, bswap32_byteAt _ (Nat.mod_lt _ (by omega)),
      terminator_eq_byteAt]
  case neg => exact bswap32_bigWord b w

/-! ### The bytes of the padded message -/

/-- Byte `k` of the message and its terminator, with zeros behind it. -/
def terminatedByte (b : List Byte) (k : Nat) : Byte :=
  if k < b.length then byteOr0 b k else if k = b.length then 0x80#8 else 0#8

theorem byteLane_littleWord (b : List Byte) (k : Nat) : byteLane (littleWord b (k / 4)) (k % 4) = byteOr0 b k := by
  have hp : k % 4 < 4 := Nat.mod_lt _ (by omega)
  have hbyte : 4 * (k / 4) + (3 - (3 - k % 4)) = k := by omega
  rw [← bswap32_bigWord, byteLane_bswap32 _ _ hp, byteLane_bigWord _ _ _ (by omega), hbyte]

/-- OR with the terminator adds the byte 0x80 at place `n` and nothing else. -/
theorem byteLane_terminatedWord (b : List Byte) (k : Nat) :
    byteLane (terminatedWord b (k / 4)) (k % 4) = terminatedByte b k := by
  have hp : k % 4 < 4 := Nat.mod_lt _ (by omega)
  have hq : b.length % 4 < 4 := Nat.mod_lt _ (by omega)
  rw [terminatedWord, terminator_eq_byteAt, terminatedByte]
  by_cases hk : k = b.length
  · subst hk
    rw [if_pos (by omega), byteLane_or_byteAt_same _ _ hq (by rw [byteLane_littleWord, byteOr0_of_le le_rfl]),
      if_neg (Nat.lt_irrefl _), if_pos rfl]
  · have hbyte : byteOr0 b k = if k < b.length then byteOr0 b k else 0#8 := by
      split_ifs with hlt
      · rfl
      · exact byteOr0_of_le (Nat.le_of_not_lt hlt)
    rw [if_neg hk, ← hbyte, ← byteLane_littleWord]
    split_ifs with hw
    · exact byteLane_or_byteAt_other _ _ hp hq (by omega)
    · rfl

/-- Byte `p` of a half of a 64-bit number that begins at bit `i`. -/
theorem byteLane_half (m : Nat) {i p : Nat} (hi : i ≤ 32) (hp : p < 4) :
    byteLane ((BitVec.ofNat 64 m).extractLsb' i 32) p = BitVec.ofNat 8 (m / 2 ^ (i + 8 * p)) := by
  apply BitVec.eq_of_getLsbD_eq
  intro k hk
  have hhalf : 8 * p + k < 32 := by omega
  have hbit : i + (8 * p + k) < 64 := by omega
  have hplace : i + (8 * p + k) = k + (i + 8 * p) := by omega
  simp only [getLsbD_byteLane, BitVec.getLsbD_extractLsb', BitVec.getLsbD_ofNat, Nat.testBit_div_two_pow, hk, hhalf, hbit,
    decide_true, Bool.true_and]
  rw [hplace]

/-- Byte `k` of the padded message (R124): the last eight are the bytes of the length, least significant first. -/
theorem byteLane_paddedWord (b : List Byte) {k : Nat} (hk : k < 64 * paddedBlocks b.length) :
    byteLane (paddedWord b (k / 4)) (k % 4) =
      if k < 64 * paddedBlocks b.length - 8 then terminatedByte b k
      else BitVec.ofNat 8 (8 * b.length / 2 ^ (8 * (k - (64 * paddedBlocks b.length - 8)))) := by
  have hp : k % 4 < 4 := Nat.mod_lt _ (by omega)
  have hnw := paddedWords_eq b.length
  have hpos := paddedBlocks_pos b.length
  rw [paddedWord_eq]
  by_cases hmsg : k < 64 * paddedBlocks b.length - 8
  case pos =>
    have hlow : k / 4 ≠ paddedWords b.length - 2 := by omega
    have hhigh : k / 4 ≠ paddedWords b.length - 1 := by omega
    rw [if_pos hmsg, Function.update_of_ne hhigh, Function.update_of_ne hlow, byteLane_terminatedWord]
  case neg =>
    rw [if_neg hmsg]
    obtain hlow | hhigh : k / 4 = paddedWords b.length - 2 ∨ k / 4 = paddedWords b.length - 1 := by omega
    · have hbyte : 8 * (k - (64 * paddedBlocks b.length - 8)) = 0 + 8 * (k % 4) := by omega
      rw [hlow, hbyte, Function.update_of_ne (by omega), Function.update_self]
      exact byteLane_half _ (by omega) hp
    · have hbyte : 8 * (k - (64 * paddedBlocks b.length - 8)) = 32 + 8 * (k % 4) := by omega
      rw [hhigh, hbyte, Function.update_self]
      exact byteLane_half _ (by omega) hp

/-- The message and its terminator end before the length begins (R59). -/
theorem length_lt_lengthBytes (n : Nat) : n < 64 * paddedBlocks n - 8 := by
  have hbits := (paddedBlocks_le_iff n _).1 le_rfl
  omega

/-- Settles O53: the words of W after PAD are those of the padded message, read here byte by byte. -/
theorem paddedByteStream : Obligations.PaddedByteStream := by
  intro s b h
  have hlength := length_lt_lengthBytes b.length
  have hnw := paddedWords_eq b.length
  have hu := h.undisturbed_of_le (k := 1 + b.length + ceil4 b.length + 2)
    (by have hpos := paddedBlocks_pos b.length; unfold runLength; omega)
  obtain ⟨t, hrun, -, hphase, -, hwords⟩ := (reaches_pad b).run_eq h.atInit _
    (by simp only [List.length_append, List.length_replicate, List.length_cons, List.length_nil, Nat.zero_add]) hu
  refine ⟨by omega, t, hrun, hphase, fun k hk => ⟨_, hwords _ (by omega), ?_⟩⟩
  rw [byteLane_paddedWord b hk, terminatedByte]
  by_cases hmsg : k < 64 * paddedBlocks b.length - 8
  · simp only [if_pos hmsg]
  · rw [if_neg hmsg, if_neg (by omega), if_neg (by omega), if_neg hmsg]

end Sys2Proof.Machine
end

section
/-! PROOF. O23 to O33: the mixing functions bit by bit, the schedule and the shift table, and the one rule of STEPt read
at each of its 64 numbers (R140 to R150, R160 to R223, R256). -/

namespace Sys2Proof.Machine

variable {s : State}

/-! ### The mixing functions (R140 to R143) -/

section
variable (b c d : Word) {n : Nat}

theorem getLsbD_mixF (hn : n < 32) :
    (mixF b c d).getLsbD n = if b.getLsbD n then c.getLsbD n else d.getLsbD n := by
  rw [mixF, BitVec.getLsbD_or, BitVec.getLsbD_and, BitVec.getLsbD_and, BitVec.getLsbD_not, decide_eq_true hn]
  cases b.getLsbD n <;> simp

/-- `G` chooses between `b` and `c` by the bits of `d`. -/
theorem mixG_eq_mixF : mixG b c d = mixF d b c := by
  rw [mixG, mixF, BitVec.and_comm b, BitVec.and_comm c]

theorem getLsbD_mixH (n : Nat) :
    (mixH b c d).getLsbD n = ((b.getLsbD n ^^ c.getLsbD n) ^^ d.getLsbD n) := by
  rw [mixH, BitVec.getLsbD_xor, BitVec.getLsbD_xor]

theorem getLsbD_mixI (hn : n < 32) : (mixI b c d).getLsbD n = (c.getLsbD n ^^ (b.getLsbD n || !d.getLsbD n)) := by
  rw [mixI, BitVec.getLsbD_xor, BitVec.getLsbD_or, BitVec.getLsbD_not, decide_eq_true hn, Bool.true_and]

/-- The two terms of `F` never share a 1 (R140). -/
theorem mixF_terms_disjoint : (b &&& c) &&& (~~~b &&& d) = 0#32 := by
  apply BitVec.eq_of_getLsbD_eq
  intro n _
  rw [BitVec.getLsbD_and, BitVec.getLsbD_and, BitVec.getLsbD_and, BitVec.getLsbD_not]
  cases b.getLsbD n <;> simp

/-- The function of each round (R140 to R143). -/
theorem mix_eq_ite (r : Nat) : mix r b c d =
    if r = 0 then mixF b c d else if r = 1 then mixG b c d else if r = 2 then mixH b c d else mixI b c d := by
  match r with
  | 0 | 1 | 2 | _ + 3 => rfl

end

/-- Settles O32: each function by its bits, each range of steps by its round. -/
theorem mixingFunctions : Obligations.MixingFunctions := by
  refine ⟨fun b c d n hn => ⟨getLsbD_mixF b c d hn, ?_, getLsbD_mixH b c d n, getLsbD_mixI b c d hn⟩,
    fun b c d => ⟨rfl, mixF_terms_disjoint b c d, rfl, mixG_eq_mixF b c d⟩, fun t b c d => ?_⟩
  · rw [mixG_eq_mixF, getLsbD_mixF _ _ _ hn]
  · have round {r : Nat} (hlo : 16 * r ≤ t) (hhi : t < 16 * r + 16) : mix (t / 16) b c d = mix r b c d := by
      rw [show t / 16 = r by omega]
    exact ⟨fun h => round (r := 0) (by omega) h, fun h => round (r := 1) h.1 h.2, fun h => round (r := 2) h.1 h.2,
      fun h => round (r := 3) h.1 h.2⟩

/-! ### The schedule and the shift table (R144, R145) -/

/-- The place in round `r` of the step that takes word `k` of the block: each round's schedule is an affine map whose
factor 1, 5, 3 or 7 has an inverse modulo 16. -/
def wordPlace (r k : Nat) : Nat :=
  match r with
  | 0 => k
  | 1 => (13 * k + 3) % 16
  | 2 => (11 * k + 9) % 16
  | _ => 7 * k % 16

section
variable {i k r : Nat}

theorem wordPlace_lt (hk : k < 16) : wordPlace r k < 16 := by
  unfold wordPlace
  split <;> omega

/-- The schedule by round and place in the round (R144). -/
theorem wordIndex_round (r : Nat) (hi : i < 16) : wordIndex (16 * r + i) =
    if r = 0 then i else if r = 1 then (5 * i + 1) % 16 else if r = 2 then (3 * i + 5) % 16 else 7 * i % 16 := by
  have hround : (16 * r + i) / 16 = r := by omega
  have hplace : (16 * r + i) % 16 = i := by omega
  rw [wordIndex, hround, hplace]
  match r with
  | 0 | 1 | 2 | _ + 3 => rfl

/-- In each round the schedule is a permutation: `wordPlace` is its inverse. -/
theorem wordIndex_eq_iff (hr : r < 4) (hi : i < 16) (hk : k < 16) :
    wordIndex (16 * r + i) = k ↔ i = wordPlace r k := by
  rw [wordIndex_round r hi]
  match r, hr with
  | 0, _ => rfl
  | 1, _ => change (5 * i + 1) % 16 = k ↔ i = (13 * k + 3) % 16; omega
  | 2, _ => change (3 * i + 5) % 16 = k ↔ i = (11 * k + 9) % 16; omega
  | 3, _ => change 7 * i % 16 = k ↔ i = 7 * k % 16; omega

/-- A shift amount by round and place in the round: the row of SROM, repeated (R145). -/
theorem shiftAmount_round (r : Nat) (hi : i < 16) : shiftAmount (16 * r + i) =
    [(srom r).a, (srom r).b, (srom r).c, (srom r).d].getD (i % 4) 0 := by
  have hround : (16 * r + i) / 16 = r := by omega
  have hplace : (16 * r + i) % 4 = i % 4 := by omega
  have hlt : i % 4 < 4 := Nat.mod_lt _ (by omega)
  rw [shiftAmount, hround, hplace]
  match i % 4, hlt with
  | 0, _ | 1, _ | 2, _ | 3, _ => rfl

/-- No step rotates by 0 or by 32 (R145). -/
theorem shiftAmount_bounds (t : Nat) : 4 ≤ shiftAmount t ∧ shiftAmount t ≤ 23 := by
  unfold shiftAmount srom
  split <;> split <;> decide

end

/-- Settles O33: the formulas by round, the permutations by their inverses, the written-out table by evaluation. -/
theorem scheduleAndShifts : Obligations.ScheduleAndShifts := by
  refine ⟨fun i hi => ⟨?_, wordIndex_round 1 hi, wordIndex_round 2 hi, wordIndex_round 3 hi⟩, rfl,
    fun r hr k hk => ⟨wordPlace r k, wordPlace_lt hk, (wordIndex_eq_iff hr (wordPlace_lt hk) hk).2 rfl,
      fun i hi => (wordIndex_eq_iff hr hi hk).1⟩,
    fun i hi => ⟨?_, shiftAmount_round 1 hi, shiftAmount_round 2 hi, shiftAmount_round 3 hi⟩,
    fun t _ => shiftAmount_bounds t⟩
  · simpa using wordIndex_round 0 hi
  · simpa [srom] using shiftAmount_round 0 hi

/-! ### STEPt for every t (R150, R256) -/

/-- STEPt on four working registers and word `k(t)` of the block. -/
theorem exec_stepInstr_eq_next (t : BitVec 6) {a b c d m : Word} {j : Nat}
    (hwr : s.wr = ⟨some a, some b, some c, some d⟩) (hj : s.j = some j)
    (hm : Memory.read s.w (16 * j + wordIndex t.toNat) = some m) :
    exec (stepInstr t) s = .next (afterStep t (s.setWr (stepFn t.toNat m ⟨a, b, c, d⟩).valued)) := by
  rw [exec_stepInstr]
  exact execStepT_eq_next.2 ⟨⟨a, b, c, d⟩, j, m, hwr, hj, hm, rfl⟩

/-- STEPt is 0x1C0 + t (R82). -/
theorem stepUop_eq_append (t : BitVec 6) : 0x1c0#10 + t.setWidth 10 = 7#4 ++ t := by
  revert t; decide

/-- The low field of STEPt's word is t (R82). -/
theorem append_toNat_mod (p : BitVec 4) (t : BitVec 6) : (p ++ t).toNat % 64 = t.toNat := by
  rw [BitVec.toNat_append, ← Nat.shiftLeft_add_eq_or_of_lt t.isLt, Nat.shiftLeft_eq]
  omega

/-- Settles O23: the word by its two fields, the result by the inversion of STEPt. -/
theorem stepResult : Obligations.StepResult := by
  refine fun t => ⟨?_, fun s a b c d m j hwr hj hm => ?_⟩
  · rw [stepUop_eq_append, decodeUop_step]
  · rw [exec_stepInstr_eq_next t hwr hj hm, stepFn, mix_eq_ite]
    rfl

/-- The rule of STEPt, with the function and the constants that the tables give at t. -/
theorem stepRule_stepInstr (t : BitVec 6) : StepRule (stepInstr t) (7#4 ++ t) (mix (t.toNat / 16)) (wordIndex t.toNat)
    (shiftAmount t.toNat) (trom t.toNat) := by
  refine ⟨decodeUop_step t, fun s a b c d m j hwr hj hm => ?_⟩
  have hcount : BitVec.ofNat 6 (t.toNat + 1) = t + 1#6 := by
    rw [BitVec.ofNat_add, BitVec.ofNat_toNat, BitVec.setWidth_eq]
  rw [exec_stepInstr_eq_next t hwr hj hm, append_toNat_mod, hcount]
  rfl

/-! ### The 64 steps, eight at a time: the rule of STEPt with its tables evaluated (R160 to R223) -/

/-- Settles O24: the rule of STEPt at 0 to 7. -/
theorem roundOneFirstSteps : Obligations.RoundOneFirstSteps :=
  ⟨stepRule_stepInstr 0#6, stepRule_stepInstr 1#6, stepRule_stepInstr 2#6, stepRule_stepInstr 3#6,
    stepRule_stepInstr 4#6, stepRule_stepInstr 5#6, stepRule_stepInstr 6#6, stepRule_stepInstr 7#6⟩

/-- Settles O25: the rule of STEPt at 8 to 15. -/
theorem roundOneLastSteps : Obligations.RoundOneLastSteps :=
  ⟨stepRule_stepInstr 8#6, stepRule_stepInstr 9#6, stepRule_stepInstr 10#6, stepRule_stepInstr 11#6,
    stepRule_stepInstr 12#6, stepRule_stepInstr 13#6, stepRule_stepInstr 14#6, stepRule_stepInstr 15#6⟩

/-- Settles O26: the rule of STEPt at 16 to 23. -/
theorem roundTwoFirstSteps : Obligations.RoundTwoFirstSteps :=
  ⟨stepRule_stepInstr 16#6, stepRule_stepInstr 17#6, stepRule_stepInstr 18#6, stepRule_stepInstr 19#6,
    stepRule_stepInstr 20#6, stepRule_stepInstr 21#6, stepRule_stepInstr 22#6, stepRule_stepInstr 23#6⟩

/-- Settles O27: the rule of STEPt at 24 to 31. -/
theorem roundTwoLastSteps : Obligations.RoundTwoLastSteps :=
  ⟨stepRule_stepInstr 24#6, stepRule_stepInstr 25#6, stepRule_stepInstr 26#6, stepRule_stepInstr 27#6,
    stepRule_stepInstr 28#6, stepRule_stepInstr 29#6, stepRule_stepInstr 30#6, stepRule_stepInstr 31#6⟩

/-- Settles O28: the rule of STEPt at 32 to 39. -/
theorem roundThreeFirstSteps : Obligations.RoundThreeFirstSteps :=
  ⟨stepRule_stepInstr 32#6, stepRule_stepInstr 33#6, stepRule_stepInstr 34#6, stepRule_stepInstr 35#6,
    stepRule_stepInstr 36#6, stepRule_stepInstr 37#6, stepRule_stepInstr 38#6, stepRule_stepInstr 39#6⟩

/-- Settles O29: the rule of STEPt at 40 to 47. -/
theorem roundThreeLastSteps : Obligations.RoundThreeLastSteps :=
  ⟨stepRule_stepInstr 40#6, stepRule_stepInstr 41#6, stepRule_stepInstr 42#6, stepRule_stepInstr 43#6,
    stepRule_stepInstr 44#6, stepRule_stepInstr 45#6, stepRule_stepInstr 46#6, stepRule_stepInstr 47#6⟩

/-- Settles O30: the rule of STEPt at 48 to 55. -/
theorem roundFourFirstSteps : Obligations.RoundFourFirstSteps :=
  ⟨stepRule_stepInstr 48#6, stepRule_stepInstr 49#6, stepRule_stepInstr 50#6, stepRule_stepInstr 51#6,
    stepRule_stepInstr 52#6, stepRule_stepInstr 53#6, stepRule_stepInstr 54#6, stepRule_stepInstr 55#6⟩

/-- Settles O31: the rule of STEPt at 56 to 63. -/
theorem roundFourLastSteps : Obligations.RoundFourLastSteps :=
  ⟨stepRule_stepInstr 56#6, stepRule_stepInstr 57#6, stepRule_stepInstr 58#6, stepRule_stepInstr 59#6,
    stepRule_stepInstr 60#6, stepRule_stepInstr 61#6, stepRule_stepInstr 62#6, stepRule_stepInstr 63#6⟩

end Sys2Proof.Machine
end

section
/-! PROOF. O19 to O22, O35: the results of the controller's micro-operations and of START, each read off its inversion
lemma (R240 to R245, R250, R255, R257, R258). -/

namespace Sys2Proof.Machine

variable {s s' : State}

/-- What INIT leaves, as one record update (R241, R250). -/
theorem afterInit_initData (n : Nat) (s : State) : afterInit n (initData n s) = { s with
    st := initialState.valued, len := some (BitVec.ofNat 64 (8 * n)), nwm := some (ceil4 n), nw := some (paddedWords n)
    nb := some (paddedWords n / 16), w := Memory.zeroBelow s.w (paddedWords n), out := [], idx := some 0, j := some 0
    t := some 0#6, phase := if 0 < n then Phase.pack else Phase.padbit } := by
  rw [afterInit, State.setPc_eq]
  rfl

/-- Settles O19: what INIT leaves field by field; the words by what clearing leaves in each cell. -/
theorem initResult : Obligations.InitResult := by
  refine ⟨rfl, fun s n hn hmax => ⟨_, execInit_eq_next.2 ⟨n, hn, hmax, afterInit_initData n s⟩, rfl, rfl, rfl, rfl, rfl,
    fun w => ?words, fun _ => rfl, rfl, rfl, rfl, rfl, rfl, rfl, fun _ => rfl, rfl, rfl, rfl, rfl, rfl⟩⟩
  case words => exact Memory.read_zeroBelow s.w (paddedWords n) w

/-- INIT gives the State the initial constants, whatever the message (R241). -/
theorem execInit_st (h : execInit s = .next s') : s'.st = initialState.valued := by
  obtain ⟨n, -, -, rfl⟩ := execInit_eq_next.1 h
  rfl

/-- No instruction but INIT and FOLD writes the State (R241, R244). -/
theorem exec_st {i : Instr} (hinit : i ≠ .init) (hfold : i ≠ .fold) (h : exec i s = .next s') : s'.st = s.st := by
  obtain ⟨-, hst, -⟩ := writersOfState i s s' h
  by_contra hne
  exact (hst hne).elim hinit hfold

/-- Settles O20: the result by LOADW's inversion lemma, the rest by who writes the State. -/
theorem loadwResult : Obligations.LoadwResult :=
  ⟨rfl, fun _ a b c d hst => execLoadw_eq_next.2 ⟨⟨a, b, c, d⟩, hst, rfl⟩, fun _ _ => execInit_st,
    fun _ _ _ => exec_st⟩

/-- Settles O21: the result by FOLD's inversion lemma. -/
theorem foldResult : Obligations.FoldResult :=
  ⟨rfl, fun _ A B C D a b c d k nb hst hwr hj hnb =>
    execFold_eq_next.2 ⟨⟨A, B, C, D⟩, ⟨a, b, c, d⟩, k, nb, hst, hwr, hj, hnb, rfl⟩⟩

/-- Settles O22: the result by FSWAP's inversion lemma; the four registers by what setting one of them leaves. -/
theorem fswapResult : Obligations.FswapResult :=
  ⟨rfl, fun s i x hidx hi hx => ⟨s.q.set i (some (bswap32 x)), fun k _ => Quad.get?_set _ _ _ _ (by omega),
    execFswap_eq_next.2 ⟨i, x, hidx, hx, rfl⟩⟩⟩

/-- START of a message the engine accepts, as one record update (R240). -/
theorem execStart_accepted {n : Nat} (hq : quiescent s.phase = true) (hp : s.present = some true) (hn : s.n = some n)
    (hmax : n ≤ Config.maxBytes) :
    execStart s = .next { s with errcode := 0#2, phase := Phase.init, idx := some 0, j := some 0, t := some 0#6 } :=
  execStart_eq_next.2 ⟨hq, .inr ⟨hp, n, hn, hmax, State.setPc_eq ..⟩⟩

/-- START of a message above MAXBYTES is refused (R318). -/
theorem execStart_tooLong {n : Nat} (hq : quiescent s.phase = true) (hp : s.present = some true) (hn : s.n = some n)
    (hlong : Config.maxBytes < n) : execStart s = .refused .messageTooLong := by
  have hfits : ¬ fits n = true := by rw [fits_iff]; omega
  simp [execStart, hq, hp, hn, hfits]

/-- A busy engine is not quiescent (R29). -/
theorem quiescent_eq_false_of_busy {p : BitVec 4} (h : busy p = true) : quiescent p = false := by
  revert p; decide

/-- Settles O35: a quiescent engine accepts, refuses or takes the exception; a busy one refuses. -/
theorem startResult : Obligations.StartResult := by
  refine ⟨rfl, fun s => ⟨fun hphase => ?quiescent, fun hphase => ?busy⟩⟩
  case quiescent =>
    have hq := (quiescent_iff _).2 hphase
    exact ⟨fun n hp hn hmax => execStart_accepted hq hp hn hmax,
      fun n hp hn hlong => ⟨_, execStart_tooLong hq hp hn hlong⟩,
      fun hp => execStart_eq_next.2 ⟨hq, .inl ⟨hp, rfl⟩⟩⟩
  case busy => exact ⟨_, execStart_notQuiescent (quiescent_eq_false_of_busy ((busy_iff_toNat _).2 hphase))⟩

end Sys2Proof.Machine
end

section
/-! PROOF. O56, O58: the whole run, read off at its end: its length, and the digest in OUT (R261, R262). -/

namespace Sys2Proof.Machine

variable {s : State} {b : List Byte}

/-- A list of reads that all find a value finds the list of the values. -/
theorem mapM_eq_some_map {α β : Type} {f : α → Option β} {g : α → β} {l : List α} (h : ∀ x ∈ l, f x = some (g x)) :
    l.mapM f = some (l.map g) := by
  induction l with
  | nil => rfl
  | cons x l ih =>
    rw [List.mapM_cons, h x List.mem_cons_self, ih fun y hy => h y (List.mem_cons_of_mem x hy)]
    rfl

/-- When FINAL is over OUT holds the serialised State (R53, R271). -/
theorem FinalUnpacking.outBytes {v : Quad Word} (h : FinalUnpacking v 16 s) :
    s.outBytes = some ((List.range 16).map (digestByte v)) := by
  obtain ⟨-, -, -, hout⟩ := h
  exact mapM_eq_some_map fun k hk => hout k (List.mem_range.1 hk)

/-- Settles O58: the stretch of the whole run, read off at its end. -/
theorem runComputesDigest : Obligations.RunComputesDigest := by
  intro s b h
  obtain ⟨t, hrun, hfinal⟩ := (reaches_digest b).run_eq h.atInit _ (runTrace_length _) (h.undisturbed_of_le le_rfl)
  have ⟨_, hdone, _⟩ := hfinal
  exact ⟨t, hrun, hdone, hfinal.outBytes⟩

/-- Before its end a run is in a state that issues a micro-operation, so the engine is busy (R29, R261). -/
theorem Started.busy_of_lt (h : Started s b) {k : Nat} (hk : k < runLength b.length) :
    ∃ t : State, Host.Core.run core k s = .next t ∧ busy t.phase = true := by
  rw [← runTrace_length] at hk
  obtain ⟨-, hissues⟩ := runIssuesTrace s b h
  obtain ⟨t, hrun, hi⟩ := hissues k _ (List.getElem?_eq_getElem hk)
  exact ⟨t, hrun, busy_of_issues hi⟩

/-- Settles O56: busy while a micro-operation of DIGEST is to come, DONE after the last. -/
theorem runEnds : Obligations.RunEnds := by
  refine fun s b h => ⟨fun k hk => ?before, ?last⟩
  case before =>
    obtain ⟨t, hrun, hbusy⟩ := h.busy_of_lt hk
    exact ⟨t, hrun, (busy_iff_toNat _).1 hbusy⟩
  case last =>
    obtain ⟨t, hrun, hdone, -⟩ := runComputesDigest s b h
    exact ⟨t, hrun, hdone⟩

end Sys2Proof.Machine
end

section
/-! PROOF. O59: the host's writes of R312 as a loop over the bytes and three more actions, which lead to a started run;
and that a run leaves ERRCODE as START wrote it (R36, R240, R262, R312). -/

namespace Sys2Proof.Machine

variable {s t : State} {b : List Byte}

/-- An undisturbed run does not write ERRCODE (R37, R285). -/
theorem errcode_of_undisturbed {k : Nat} (hu : undisturbed s k) (h : Host.Core.run core k s = .next t) :
    t.errcode = s.errcode := by
  induction k generalizing s with
  | zero =>
    cases h
    rfl
  | succ k ih =>
    obtain ⟨p, hstep, hp⟩ := step_of_undisturbed hu
    obtain ⟨s₁, hs₁⟩ : ∃ s₁, step s = .next s₁ := by
      by_contra hnone
      exact run_succ_ne_next k (not_exists.1 hnone) t h
    obtain ⟨⟨-, -, herrcode, hpending, -⟩, -⟩ := engineStep_keeps (hstep.symm.trans hs₁)
    rw [run_succ k hs₁] at h
    exact (ih (hp _ hpending) h).trans herrcode

/-! ### The host's writes, each a step when it is due (R33, R34, R38, R240) -/

section
variable {rest : List HostEvent}

theorem step_writeIn {i : Nat} {c : Byte} (h : s.pending = ⟨0, .writeIn i c⟩ :: rest) (hq : quiescent s.phase = true)
    (hi : i < Config.maxBytes) : step s = .next ((s.setPending rest).setIn (Memory.write s.inp i c)) :=
  ((step_due h).trans (whenQuiescent_of hq _)).trans (storeIn_of (.inr hi))

theorem step_writeN {v : Nat} (h : s.pending = ⟨0, .writeN v⟩ :: rest) (hq : quiescent s.phase = true) :
    step s = .next ((s.setPending rest).setN (some v)) :=
  (step_due h).trans (whenQuiescent_of hq _)

theorem step_writePresent {v : Bool} (h : s.pending = ⟨0, .writePresent v⟩ :: rest) (hq : quiescent s.phase = true) :
    step s = .next ((s.setPending rest).setPresent (some v)) :=
  (step_due h).trans (whenQuiescent_of hq _)

theorem step_start {n : Nat} (h : s.pending = ⟨0, .command 1#2⟩ :: rest) (hq : quiescent s.phase = true)
    (hp : s.present = some true) (hn : s.n = some n) (hmax : n ≤ Config.maxBytes) :
    step s = .next { s with
      pending := rest, errcode := 0#2, phase := Phase.init, idx := some 0, j := some 0, t := some 0#6 } :=
  (step_due h).trans (execStart_accepted hq hp hn hmax)

end

/-! ### From the first byte to the end of the run -/

/-- The host has done the first `i` of its writes of IN on a quiescent engine (R312). -/
def Booting (b : List Byte) (i : Nat) (s : State) : Prop :=
  quiescent s.phase = true ∧ s.pending = (bootActions b).drop i ∧ ∀ k < i, Memory.read s.inp k = some (byteOr0 b k)

theorem bootActions_length (b : List Byte) : (bootActions b).length = b.length + 3 := by simp [bootActions]

/-- The next of the host's actions is the write of byte `i`. -/
theorem bootActions_drop {i : Nat} (hi : i < b.length) :
    (bootActions b).drop i = ⟨0, .writeIn i (byteOr0 b i)⟩ :: (bootActions b).drop (i + 1) := by
  have hlt : i < (bootActions b).length := by rw [bootActions_length]; omega
  rw [List.drop_eq_getElem_cons hlt]
  congr 1
  simp [bootActions, hi]

/-- After the bytes come `N`, PRESENT and START. -/
theorem bootActions_drop_length (b : List Byte) :
    (bootActions b).drop b.length = [⟨0, .writeN b.length⟩, ⟨0, .writePresent true⟩, ⟨0, .command 1#2⟩] := by
  rw [bootActions]
  exact List.drop_left' (by simp)

/-- One more byte written (R38). -/
theorem Booting.writeIn {i : Nat} (h : Booting b i s) (hi : i < b.length) (hmax : b.length ≤ Config.maxBytes) :
    ∃ t, step s = .next t ∧ Booting b (i + 1) t := by
  obtain ⟨hq, hpending, hinp⟩ := h
  rw [bootActions_drop hi] at hpending
  refine ⟨_, step_writeIn hpending hq (hi.trans_le hmax), hq, rfl, fun k hk => ?_⟩
  rw [State.setIn_inp, Memory.read_write]
  split_ifs with hki
  · rw [hki]
  · exact hinp k (by omega)

/-- All the bytes up to `i` written. -/
theorem Booting.exists_run (h : Booting b 0 s) (hmax : b.length ≤ Config.maxBytes) {i : Nat} (hi : i ≤ b.length) :
    ∃ t : State, Host.Core.run core i s = .next t ∧ Booting b i t := by
  induction i with
  | zero => exact ⟨s, rfl, h⟩
  | succ i ih =>
    obtain ⟨t, hrun, hboot⟩ := ih (by omega)
    obtain ⟨t', hstep, hboot'⟩ := hboot.writeIn hi hmax
    exact ⟨t', by rw [run_add i 1 hrun, run_succ 0 hstep]; rfl, hboot'⟩

/-- With the message and its ports written, START starts the run (R240). -/
theorem run_start (hpending : s.pending = [⟨0, .command 1#2⟩]) (hq : quiescent s.phase = true)
    (hp : s.present = some true) (hn : s.n = some b.length) (hmax : b.length ≤ Config.maxBytes)
    (hmsg : holdsMessage s b) :
    ∃ t : State, Host.Core.run core 1 s = .next t ∧ Started t b ∧ t.errcode = 0#2 := by
  rw [run_succ 0 (step_start hpending hq hp hn hmax)]
  exact ⟨_, rfl, ⟨rfl, hn, hmax, hmsg, nofun⟩, rfl⟩

/-- With the message and `N` written, PRESENT and START start the run (R34, R240). -/
theorem run_present_start (hpending : s.pending = [⟨0, .writePresent true⟩, ⟨0, .command 1#2⟩])
    (hq : quiescent s.phase = true) (hn : s.n = some b.length) (hmax : b.length ≤ Config.maxBytes)
    (hmsg : holdsMessage s b) :
    ∃ t : State, Host.Core.run core 2 s = .next t ∧ Started t b ∧ t.errcode = 0#2 := by
  rw [run_succ 1 (step_writePresent hpending hq)]
  exact run_start rfl hq rfl hn hmax hmsg

/-- With the bytes written, `N`, PRESENT and START start the run (R312). -/
theorem Booting.started (h : Booting b b.length s) (hmax : b.length ≤ Config.maxBytes) :
    ∃ t : State, Host.Core.run core 3 s = .next t ∧ Started t b ∧ t.errcode = 0#2 := by
  obtain ⟨hq, hpending, hmsg⟩ := h
  rw [bootActions_drop_length] at hpending
  rw [run_succ 2 (step_writeN hpending hq)]
  exact run_present_start rfl hq rfl hmax hmsg

/-- Settles O59: the host's actions start a run, whose end has the digest in OUT and ERRCODE as START left it. -/
theorem bootToDigest : Obligations.BootToDigest := by
  intro s b hphase hmax hpending
  have hboot : Booting b 0 s := ⟨(quiescent_iff _).2 hphase, hpending, fun k hk => absurd hk k.not_lt_zero⟩
  obtain ⟨s₁, hload, hloaded⟩ := hboot.exists_run hmax le_rfl
  obtain ⟨s₂, hstart, hstarted, herrcode⟩ := hloaded.started hmax
  obtain ⟨t, hrun, hdone, hout⟩ := runComputesDigest s₂ b hstarted
  have hkept := errcode_of_undisturbed (hstarted.undisturbed_of_le le_rfl) hrun
  refine ⟨t, ?_, ?_, hout⟩
  · rw [Nat.add_assoc, run_add _ _ hload, run_add _ _ hstart, hrun]
  · rw [State.status, hkept, herrcode, hdone]
    rfl

end Sys2Proof.Machine
end

section
/-! PROOF. O60: each nibble is a digit that reads back as itself; the rendering and its reading then follow the byte list
(R270, R273). -/

namespace Sys2Proof.Machine

/-! ### One digit -/

/-- The digit of a nibble is that character of the alphabet (R270). -/
theorem alphabet_getElem? {n : Nat} (hn : n < 16) : "0123456789abcdef".toList[n]? = some (hexDigit n) := by
  decide +revert

/-- A digit reads back as its nibble (R273). -/
theorem hexValue_hexDigit {n : Nat} (hn : n < 16) : hexValue (hexDigit n) = some n := by
  decide +revert

/-! ### The two nibbles of a byte -/

theorem toNat_highNibble (x : Byte) : (x >>> 4).toNat = x.toNat / 16 := by
  rw [BitVec.toNat_ushiftRight, Nat.shiftRight_eq_div_pow]

theorem toNat_lowNibble (x : Byte) : (x &&& 0xf#8).toNat = x.toNat % 16 := by
  rw [BitVec.toNat_and]
  exact Nat.and_two_pow_sub_one_eq_mod x.toNat 4

theorem highNibble_lt (x : Byte) : x.toNat / 16 < 16 := Nat.div_lt_of_lt_mul x.isLt

theorem lowNibble_lt (x : Byte) : x.toNat % 16 < 16 := Nat.mod_lt _ (by decide)

/-! ### The whole rendering -/

theorem hexRender_length (bytes : List Byte) : (hexRender bytes).length = 2 * bytes.length := by
  induction bytes with
  | nil => rfl
  | cons b rest ih =>
    rw [hexRender, List.length_cons, List.length_cons, List.length_cons, ih]
    omega

/-- Byte `i` is rendered at the characters `2 * i` and `2 * i + 1`. -/
theorem hexRender_getElem? {bytes : List Byte} {i : Nat} {x : Byte} (hx : bytes[i]? = some x) :
    (hexRender bytes)[2 * i]? = some (hexDigit (x.toNat / 16)) ∧
      (hexRender bytes)[2 * i + 1]? = some (hexDigit (x.toNat % 16)) := by
  induction bytes generalizing i with
  | nil => cases hx
  | cons b rest ih =>
    cases i with
    | zero =>
      cases hx
      exact ⟨rfl, rfl⟩
    | succ i => exact ih hx

/-- Reading a byte's two digits before the rest gives the byte before the rest: a byte is 16 times its high nibble plus
its low one. -/
theorem hexRead_hexRender (bytes : List Byte) : hexRead (hexRender bytes) = some bytes := by
  induction bytes with
  | nil => rfl
  | cons b rest ih =>
    have hhigh := hexValue_hexDigit (highNibble_lt b)
    have hlow := hexValue_hexDigit (lowNibble_lt b)
    have hbyte : BitVec.ofNat 8 (16 * (b.toNat / 16) + b.toNat % 16) = b := by
      rw [Nat.div_add_mod, BitVec.ofNat_toNat, BitVec.setWidth_eq]
    simp only [hexRender, hexRead, hhigh, hlow, ih, hbyte]

/-- Settles O60: the digits of a byte stand where the byte does, and each pair of them reads back as the byte. -/
theorem hexRendering : Obligations.HexRendering := by
  refine fun bytes => ⟨hexRender_length bytes, fun i x hx => ?_, hexRead_hexRender bytes⟩
  rw [toNat_highNibble, toNat_lowNibble, alphabet_getElem? (highNibble_lt x), alphabet_getElem? (lowNibble_lt x)]
  exact hexRender_getElem? hx

end Sys2Proof.Machine
end

section
/-! PROOF. O36: no sequencing rule leads to ERR, so the exception is START's alone, and START takes it only with
PRESENT = 0 (R280, R281, R284, R285). -/

namespace Sys2Proof.Machine

variable {s s' : State}

/-! ### The sequencing rules (R250 to R259) -/

/-- A sequencing rule with two successors does not lead to ERR if neither successor is in ERR. -/
theorem ite_phase_ne_err {c : Prop} [Decidable c] {a b : State} (ha : a.phase ≠ Phase.err) (hb : b.phase ≠ Phase.err) :
    (if c then a else b).phase ≠ Phase.err := by
  split_ifs
  · exact ha
  · exact hb

theorem afterInit_phase_ne_err (s : State) (n : Nat) : (afterInit n s).phase ≠ Phase.err := by
  rw [afterInit, State.setPc_phase]
  split_ifs <;> decide

theorem afterPackb_phase_ne_err (n i : Nat) (h : s.phase ≠ Phase.err) : (afterPackb n i s).phase ≠ Phase.err :=
  ite_phase_ne_err h nofun

theorem afterBswap_phase_ne_err (nwm i : Nat) (h : s.phase ≠ Phase.err) : (afterBswap nwm i s).phase ≠ Phase.err :=
  ite_phase_ne_err h nofun

theorem afterStep_phase_ne_err (t : BitVec 6) (h : s.phase ≠ Phase.err) : (afterStep t s).phase ≠ Phase.err :=
  ite_phase_ne_err h nofun

theorem afterFold_phase_ne_err (s : State) (nb j : Nat) : (afterFold nb j s).phase ≠ Phase.err :=
  ite_phase_ne_err nofun nofun

theorem afterFswap_phase_ne_err (i : Nat) (h : s.phase ≠ Phase.err) : (afterFswap i s).phase ≠ Phase.err :=
  ite_phase_ne_err h nofun

theorem afterUnpkb_phase_ne_err (i : Nat) (h : s.phase ≠ Phase.err) : (afterUnpkb i s).phase ≠ Phase.err :=
  ite_phase_ne_err h nofun

/-! ### Who raises the exception -/

/-- No instruction but START leads to ERR (R280): each of the others ends with its sequencing rule. -/
theorem exec_phase_ne_err {i : Instr} (hi : i ≠ .start) (h : exec i s = .next s') (hp : s.phase ≠ Phase.err) :
    s'.phase ≠ Phase.err := by
  rcases Instr.kinds i with ⟨k, rfl⟩ | rfl | rfl | rfl | rfl | rfl | rfl | rfl | rfl | rfl | rfl | rfl
  · rw [exec_stepInstr] at h
    obtain ⟨r, j, m, -, -, -, rfl⟩ := execStepT_eq_next.1 h
    exact afterStep_phase_ne_err k hp
  · obtain ⟨n, -, -, rfl⟩ := execInit_eq_next.1 h
    exact afterInit_phase_ne_err _ n
  · obtain ⟨i, b, x, n, -, -, -, -, rfl⟩ := execPackb_eq_next.1 h
    exact afterPackb_phase_ne_err n i hp
  · obtain ⟨i, x, n, -, -, -, rfl⟩ := execBswap_eq_next.1 h
    exact afterBswap_phase_ne_err n i hp
  · obtain ⟨l, x, -, -, rfl⟩ := execPadbit_eq_next.1 h
    nofun
  · obtain ⟨l, n, -, -, -, -, -, rfl⟩ := execPadlen_eq_next.1 h
    nofun
  · obtain ⟨v, -, rfl⟩ := execLoadw_eq_next.1 h
    nofun
  · obtain ⟨v, r, j, n, -, -, -, -, rfl⟩ := execFold_eq_next.1 h
    exact afterFold_phase_ne_err _ n j
  · obtain ⟨i, x, -, -, rfl⟩ := execFswap_eq_next.1 h
    exact afterFswap_phase_ne_err i hp
  · obtain ⟨i, x, -, -, rfl⟩ := execUnpkb_eq_next.1 h
    exact afterUnpkb_phase_ne_err i hp
  · exact absurd rfl hi
  · cases h
    exact hp

/-- No instruction but START writes ERRCODE (R37). -/
theorem exec_errcode {i : Instr} (hi : i ≠ .start) (h : exec i s = .next s') : s'.errcode = s.errcode := by
  obtain ⟨-, -, -, -, -, -, herrcode, -⟩ := writersOfState i s s' h
  by_contra hne
  exact hi (herrcode hne)

/-- START answers ERRCODE 1 or PHASE 15 only with PRESENT = 0: an accepted message sets ERRCODE 0 and PHASE 1 (R240). -/
theorem execStart_present_of_err (h : execStart s = .next s') (herr : s'.errcode = 1#2 ∨ s'.phase = Phase.err) :
    s.present = some false := by
  obtain ⟨-, ⟨hp, -⟩ | ⟨-, n, -, -, rfl⟩⟩ := execStart_eq_next.1 h
  · exact hp
  · rcases herr with herr | herr <;> cases herr

/-- Settles O36: the effect is that of START; no other instruction writes ERRCODE or leads to ERR. -/
theorem invalidArgument : Obligations.InvalidArgument := by
  constructor
  · intro s hphase
    obtain ⟨-, hstart⟩ := startResult
    obtain ⟨-, -, hexception⟩ := (hstart s).1 hphase
    exact hexception
  · intro i s t h hraised
    by_cases hi : i = .start
    · subst hi
      exact ⟨rfl, execStart_present_of_err h (hraised.imp And.left And.left)⟩
    · rcases hraised with ⟨hone, hne⟩ | ⟨herr, hne⟩
      · exact absurd ((exec_errcode hi h).symm.trans hone) hne
      · exact absurd herr (exec_phase_ne_err hi h hne)

end Sys2Proof.Machine
end

section
/-! PROOF. O37, O38: a busy engine is not quiescent, so it refuses START and the host's writes; a quiescent one still
looks at PRESENT and then at N (R34, R318, R319, R320). -/

namespace Sys2Proof.Machine

variable {s : State}

/-- START with PRESENT = 1 and no length is refused: R318 asks for the refusal, so this read of N is not a fault. -/
theorem execStart_noLength (hq : quiescent s.phase = true) (hp : s.present = some true) (hn : s.n = none) :
    execStart s = .refused .messageTooLong := by
  simp [execStart, hq, hp, hn]

/-- A host write that needs a quiescent engine is refused in every other phase (R45, R319). -/
theorem whenQuiescent_refused (hq : quiescent s.phase = false) (r : Result) :
    whenQuiescent s r = .refused .hostWriteNotQuiescent := by
  simp [whenQuiescent, hq]

/-- Settles O37: a busy engine refuses; a quiescent one refuses a length that is missing or too long, and faults on a
missing PRESENT. -/
theorem startRefused : Obligations.StartRefused := by
  refine fun s => ⟨fun hphase => ?busy, fun hphase => ⟨fun hp hlength => ?length, fun hp => ?noPresent⟩⟩
  case busy => exact execStart_notQuiescent (quiescent_eq_false_of_busy ((busy_iff_toNat _).2 hphase))
  case length =>
    have hq := (quiescent_iff _).2 hphase
    rcases hlength with hn | ⟨n, hn, hlong⟩
    · exact execStart_noLength hq hp hn
    · exact execStart_tooLong hq hp hn hlong
  case noPresent => exact execStart_noPresent ((quiescent_iff _).2 hphase) hp

/-- Settles O38: each of the three writes waits for a quiescent engine, whatever it would write. -/
theorem hostWritesWhileBusy : Obligations.HostWritesWhileBusy := by
  intro s hlow hhigh
  have hq := quiescent_eq_false_of_busy ((busy_iff_toNat _).2 ⟨hlow, hhigh⟩)
  exact ⟨fun i b => whenQuiescent_refused hq _, fun v => whenQuiescent_refused hq _,
    fun v => whenQuiescent_refused hq _⟩

end Sys2Proof.Machine
end
